-- ==== Sys2Proof/Word.lean ====
section
/-! DEFINITION. Words, and the one shape every sparse store of the model has.
R3 (00_scope.md): bit 0 is the least significant bit of every field, register and word. -/
namespace Sys2Proof

/-- A byte of any memory. -/
abbrev Byte := BitVec 8
/-- A 64-bit scalar register, sync counter or register-file entry. -/
abbrev Word := BitVec 64
/-- A 52-bit device address or stride (R25, R163). -/
abbrev Addr := BitVec 52

/-- A sparse store: keys strictly rising, no entry equal to what an unlisted key reads as. -/
abbrev Table (α : Type) := List (Nat × α)

end Sys2Proof
end

