-- ==== Sys2Proof/Syntax.lean ====
section
/-! DEFINITION. The commands: one constructor of `Instr` per row of spec/opcode_table.json, with the operands
that say which unit, register, link or host the operation or event concerns. The table gives no row any bits. -/
namespace Sys2Proof

/-- Tiles are numbered 0 to 127 (R18). -/
abbrev TileId := Fin 128

/-- The three matrix units of a tile (R114). -/
inductive MUnit where
  | f | b0 | b1
  deriving DecidableEq, Repr

/-- The four logic dies (R17), in the order of R318. -/
inductive Die where
  | cd0 | cd1 | nd0 | nd1
  deriving DecidableEq, Repr

/-- The kinds of check of R474, in the order of TILE_CHK_LAST.KIND. -/
inductive ChkKind where
  | row | parity | place | win | drain
  deriving DecidableEq, Repr

/-- What the error-correcting code finds at an access (R183, R245, R279). -/
inductive Ecc where
  | clean | corrected | uncorrectable
  deriving DecidableEq, Repr

/-- Channels in the numbering of R396: user channel n of tile t is 4t + n; channel k of mover m is 512 + 8m + k. -/
abbrev ChanId := Fin 768

/-- Flow contexts are numbered 0 to 262,143 (R327). -/
abbrev FlowId := Fin 262144

/-- Near memory ends at 512 GiB (R25). -/
abbrev NearAddr := Fin 0x8000000000

/-- 64-byte lines of a port's 4 TiB far window (R25, R292). -/
abbrev FarLine := Fin 0x1000000000

/-- 16-byte words of a scratchpad (R242). -/
abbrev SpWord := Fin 393216

/-- Why the power stage trips (R33). -/
inductive TripCause where
  | uv | ov
  | therm (d : Die)
  deriving DecidableEq, Repr

/-- Hottest junction of each die, in °C (PWR_TEMP, R46). -/
structure Temps where
  cd0 : Nat
  cd1 : Nat
  nd0 : Nat
  nd1 : Nat
  deriving DecidableEq, Repr

/-- The way a host's register access enters (R373, R374): BAR0 of function `fn` of a port (0 = PF, 1 to 31 = VF),
or BAR4 of the port's PF. -/
inductive Path where
  | bar0 (port : Fin 2) (fn : Fin 32)
  | bar4 (port : Fin 2)
  deriving DecidableEq, Repr

/-- What the surroundings answer to a read of host memory (R380, R384, R390). -/
inductive HostReply where
  | data (bytes : List Byte)
  | busError
  deriving DecidableEq, Repr

/-- One access of a near-memory controller (R277): a read of a whole line or of one sector, or a write of bytes
inside one line. -/
inductive HbmAccess where
  | readLine
  | readSector
  | write (bytes : List Byte)
  deriving DecidableEq, Repr

/-- One word request a scratchpad port presents (R243). -/
structure SpReq where
  port : Fin 36
  word : SpWord
  deriving DecidableEq, Repr

/-- The channel classes of R299. -/
inductive FabClass where
  | req | sub | rsp | col
  deriving DecidableEq, Repr

/-- The arbiters of R306. -/
inductive ArbKind where
  | tileEgress | islandUplink | moverUplink | islandDownlink | hbmController | seamRole | seam3 | netCrossbar
  deriving DecidableEq, Repr

/-- The link header's and transport header's classes on the wire (R321). -/
inductive WireClass where
  | req | rsp | col
  deriving DecidableEq, Repr

/-- A transport packet (R325), decoded from its bytes; `payload` is the logical payload, after zero segments are put back
(R337), `elideMask` the segments present on the wire. The reserved bits, VER and the length of the payload are summed up in
`wellFormed`: false is a packet R325 discards. -/
structure Packet where
  wellFormed : Bool
  ptype    : Nat
  elided   : Bool
  fetch    : Bool
  retx     : Bool
  nhops    : Nat
  rptr     : Nat
  route    : BitVec 64
  dstFlow  : Nat
  srcFlow  : Nat
  psn      : BitVec 32
  raddr    : Nat
  len      : Nat
  afmt     : Nat
  status   : Nat
  reason   : Nat
  ref      : BitVec 32
  elideMask : BitVec 64
  cumPsn   : BitVec 32
  sack     : BitVec 32
  payload  : List Byte
  deriving DecidableEq, Repr

/-- Why a link goes down (R338). -/
inductive LinkCause where
  | pcsLoss | hcrcSilence | linkFault
  deriving DecidableEq, Repr

/-- What a training attempt of an optical port finds (R320): failing lanes that are lasers, failing lanes of any
other kind, and whether a peer trains (each a 4-bit mask of lanes). -/
structure LaneTest where
  laserFail : BitVec 4
  otherFail : BitVec 4
  peerUp    : BitVec 4
  deriving DecidableEq, Repr

/-- What start-up meets in the world outside the spec's registers (R437, R438): fused and trained outcomes.
[log 107: DEDUCED] -/
structure StartInputs where
  /-- a die whose fuse word fails parity -/
  fuseFail   : Option Die
  /-- the firmware slot's image passes R422 -/
  fwGood     : Bool
  /-- the sketch's image passes R422 -/
  sketchGood : Bool
  /-- a started PLL that does not lock -/
  pllFail    : Option (Fin 25)
  /-- failing lanes of each lane group of each direction at training: (seam, group, direction, failing lanes) (R22) -/
  laneFails  : List (Nat × Nat × Bool × Nat)
  /-- failing lanes of the pseudo-channels at training: (stack, pseudo-channel 0 to 63, failing lanes) (R274) -/
  hbmLanes   : List (Fin 8 × Fin 64 × Nat)
  /-- trained width, speed code (1 = 32 GT/s, 2 = 64 GT/s, 0 = down) and 256-byte flit mode of each CXL port (R290) -/
  cxlLink    : List (Nat × Nat × Bool)
  /-- capacities in bytes of each CXL port's targets, in bus order (R291) -/
  cxlTargets : List (List Nat)
  /-- a stage during which a die's clock is lost -/
  clockLost  : Option (Nat × Die)
  /-- a stage during which the power stage trips -/
  trip       : Option (Nat × TripCause)
  /-- the spare-laser and lane outcome of each optical port -/
  optics     : List LaneTest
  /-- milliseconds from the start to release or halt -/
  millis     : Nat
  deriving DecidableEq, Repr

/-- What a host asks for in configuration space, beside the port it comes by (R372, R373, R439): of function `fn`, Bus Master Enable, ATS enable, or the reporting
of ERR_NONFATAL written, the errors AER has recorded read or cleared, an ATS invalidation; TotalVFs read; BAR2 resized to
2^log2 bytes; or any other. -/
inductive CfgReq where
  | busMaster (fn : Fin 32) (on : Bool)
  | ats (fn : Fin 32) (on : Bool)
  | aerEnable (fn : Fin 32) (on : Bool)
  | aerRead (fn : Fin 32)
  | aerClear (fn : Fin 32)
  | invalidate (fn : Fin 32)
  | totalVfs
  | resizeBar2 (log2 : Nat)
  | other
  deriving DecidableEq, Repr

/-- A signed image as it lies in a buffer or arrives on the IEEE 1149.1 port (R421). -/
abbrev Image := List Byte

/-- One constructor per row of the table. Slot rows name a tile; `hi` picks the higher of the two slots an
operation may stand in (S3 rather than S2, S5 rather than S4); `parity` says that a register read by the bundle
has bad parity (R458). `cid` is the number the front end gave a fetched command. -/
inductive Instr where
  | powerTrip (cause : TripCause)
  | governorSample (watts tenthVolts : Nat) (temps : Temps)
  | governorStep
  | restore
  | pwrProfileWrite (path : Path) (v : BitVec 32)
  | pwrCapWrite (path : Path) (v : BitVec 32)
  | clockLoss (domain : Fin 25)
  | seamReplay (seam : Fin 4) (keepsFailing : Bool)
  | bundleNop (t : TileId) (parity : Bool)
  | endTask (t : TileId) (parity : Bool)
  | br (t : TileId) (parity : Bool)
  | loopSet (t : TileId) (parity : Bool)
  | loopEnd (t : TileId) (parity : Bool)
  | rep (t : TileId) (parity : Bool)
  | cmpSet (t : TileId) (parity : Bool)
  | cntSet (t : TileId) (parity : Bool)
  | scAdd (t : TileId) (parity : Bool)
  | scSub (t : TileId) (parity : Bool)
  | scMul (t : TileId) (parity : Bool)
  | scAnd (t : TileId) (parity : Bool)
  | scOr (t : TileId) (parity : Bool)
  | scXor (t : TileId) (parity : Bool)
  | scShl (t : TileId) (parity : Bool)
  | scShr (t : TileId) (parity : Bool)
  | scSra (t : TileId) (parity : Bool)
  | scMin (t : TileId) (parity : Bool)
  | scMax (t : TileId) (parity : Bool)
  | scMinu (t : TileId) (parity : Bool)
  | scMaxu (t : TileId) (parity : Bool)
  | scSlt (t : TileId) (parity : Bool)
  | scSltu (t : TileId) (parity : Bool)
  | scMovi (t : TileId) (parity : Bool)
  | scMovhi (t : TileId) (parity : Bool)
  | scMova (t : TileId) (parity : Bool)
  | scMovc (t : TileId) (parity : Bool)
  | agAdd (t : TileId) (hi : Bool) (parity : Bool)
  | agSet (t : TileId) (hi : Bool) (parity : Bool)
  | agDset (t : TileId) (hi : Bool) (parity : Bool)
  | agMov (t : TileId) (hi : Bool) (parity : Bool)
  | agDmov (t : TileId) (hi : Bool) (parity : Bool)
  | agInc (t : TileId) (hi : Bool) (parity : Bool)
  | mmF (t : TileId) (hi : Bool) (parity : Bool)
  | mmDx (t : TileId) (parity : Bool)
  | mmDw (t : TileId) (parity : Bool)
  | accInit (t : TileId) (hi : Bool) (parity : Bool)
  | accDrain (t : TileId) (hi : Bool) (parity : Bool)
  | vopCvt (t : TileId) (parity : Bool)
  | vopAdd (t : TileId) (parity : Bool)
  | vopMul (t : TileId) (parity : Bool)
  | vopFma (t : TileId) (parity : Bool)
  | vopAxpy (t : TileId) (parity : Bool)
  | vopMax (t : TileId) (parity : Bool)
  | vopMin (t : TileId) (parity : Bool)
  | vopSten (t : TileId) (parity : Bool)
  | vopDsten (t : TileId) (parity : Bool)
  | vopRsum (t : TileId) (parity : Bool)
  | vopRmax (t : TileId) (parity : Bool)
  | vopSent (t : TileId) (parity : Bool)
  | vopTload (t : TileId) (parity : Bool)
  | dmaLds (t : TileId) (parity : Bool)
  | dmaSts (t : TileId) (parity : Bool)
  | scalarGrant (t : TileId)
  | dmaXfer (t : TileId) (parity : Bool)
  | synEvset (t : TileId) (parity : Bool)
  | synWaitl (t : TileId) (parity : Bool)
  | synSignal (t : TileId) (parity : Bool)
  | synWaitge (t : TileId) (parity : Bool)
  | synCset (t : TileId) (parity : Bool)
  | dmQueueHeadStart (t : TileId)
  | waitgeRelease (t : TileId)
  | matrixCommandStart (t : TileId) (u : MUnit)
  | stationaryLoadDone (t : TileId) (u : MUnit)
  | streamLoadDone (t : TileId) (u : MUnit)
  | anchorScanDone (t : TileId) (u : MUnit)
  | headerCycle (t : TileId) (u : MUnit)
  | windowFill (t : TileId) (u : MUnit)
  | matrixPipelineCycle (t : TileId) (u : MUnit) (fail : Option ChkKind)
  | windowSpill (t : TileId) (u : MUnit) (resFail : Bool)
  | drainColumn (t : TileId) (u : MUnit) (dupFail : Bool)
  | stagingBlockWrite (t : TileId) (u : MUnit)
  | zHalfBlockLoad (t : TileId) (bus : Bool)
  | sweepBoundaryAbort (t : TileId) (u : MUnit)
  | matrixCommandRetire (t : TileId) (u : MUnit)
  | allFwdWrite (path : Path) (t : TileId) (v : BitVec 32)
  | modeSwitch (t : TileId)
  | launch (cid : Nat)
  | preloadComplete (t : TileId) (bus : Bool)
  | taskSwitch (t : TileId)
  | taskComplete (t : TileId)
  | imemHostWrite (path : Path) (off : Nat) (bytes : List Byte)
  | tileEvWrite (path : Path) (t : TileId) (n : Fin 16) (v : BitVec 32)
  | vectorCommandStart (t : TileId)
  | vectorChunk (t : TileId) (resFail : Bool) (bus : Bool)
  | vectorChunkWrite (t : TileId)
  | vectorCommandRetire (t : TileId)
  | scratchpadGrant (t : TileId) (reqs : List SpReq) (upset : Option (SpWord × Ecc))
  | a128TileAdd (t : TileId)
  | a128AddDone (t : TileId)
  | dmaChProdWrite (path : Path) (ch : ChanId) (v : BitVec 32)
  | dmaChRingBaseWrite (path : Path) (ch : ChanId) (v : BitVec 64)
  | dmaChRingCfgWrite (path : Path) (ch : ChanId) (v : BitVec 32)
  | dmaRun (path : Path) (ch : ChanId) (run : Bool)
  | dmaAbort (path : Path) (ch : ChanId)
  | dmaResume (path : Path) (ch : ChanId)
  | restart (path : Path) (m : Fin 32)
  | descriptorFetch (ch : ChanId) (bus : Bool)
  | descriptorCopy (ch : ChanId)
  | descriptorAdd (ch : ChanId)
  | descriptorFill (ch : ChanId)
  | dmaBurst (ch : ChanId)
  | descriptorComplete (ch : ChanId) (bus : Bool)
  | dmaMemUeResponse (ch : ChanId)
  | dmaBusError (ch : ChanId) (addr : Addr) (wr : Bool)
  | moverBusError (m : Fin 32) (addr : Addr) (wr : Bool)
  | hbmSectorAccess (addr : NearAddr) (acc : HbmAccess) (ecc : Ecc)
  | patrolScrub (addr : NearAddr) (ecc : Ecc)
  | stackTempSample (stack : Fin 8) (celsius : Nat)
  | elementAdd (stack : Fin 8)
  | memoryTileAdd (stack : Fin 8)
  | regulatorTick (cd : Fin 2)
  | controllerGrant (stack : Fin 8) (late : Bool)
  | memRegCfgWrite (path : Path) (cd : Fin 2) (part : Fin 16) (v : BitVec 32)
  | memPartMapWrite (path : Path) (j : Fin 21) (v : BitVec 32)
  | cxlRequest (port : Fin 4) (line : FarLine) (wr : Option (List (Fin 64 × Byte)))
  | cxlCompletion (port : Fin 4) (line : FarLine) (poison : Bool) (bytes : List Byte)
  | cxlTimeoutExpiry (port : Fin 4) (line : FarLine)
  | dlDown (port : Fin 4)
  | cxlLinkRecovery (port : Fin 4)
  | arbiterGrant (die : Die) (kind : ArbKind) (unit : Nat) (role : Fin 3) (late creditErr : Bool)
  | creditReturn (die : Die) (link : Nat) (cls : FabClass) (n : Nat)
  | retryResend (ch : ChanId)
  | fabWaitMaxRead (path : Path) (die : Die)
  | portRetrain (port : Fin 32) (test : LaneTest)
  | linkStatusSend (port : Fin 32) (sub : Fin 4)
  | nativeFrameReceive (port : Fin 32) (sub : Fin 4) (bytes : List Byte)
  | ethernetFrameReceive (port : Fin 32) (sub : Fin 4) (bytes : List Byte)
  | sourceRouteForward (nd : Fin 2)
  | packetSend (flow : FlowId)
  | write (nd : Fin 2)
  | read (nd : Fin 2)
  | readRsp (nd : Fin 2)
  | atomic (nd : Fin 2)
  | atomicRsp (nd : Fin 2)
  | send (nd : Fin 2)
  | ack (nd : Fin 2)
  | nack (nd : Fin 2)
  | ackSend (flow : FlowId)
  | retransmitTimeout (flow : FlowId)
  | rnrRetry (flow : FlowId)
  | linkLoss (port : Fin 32) (sub : Fin 4) (cause : LinkCause)
  | linkHoldExpiry (port : Fin 32) (sub : Fin 4)
  | linkReturn (port : Fin 32) (sub : Fin 4)
  | flowOpen (path : Path) (flow : FlowId) (v : BitVec 64)
  | flowDrain (path : Path) (flow : FlowId) (v : BitVec 64)
  | flowFree (path : Path) (flow : FlowId) (v : BitVec 64)
  | flowFieldWrite (path : Path) (flow : FlowId) (word : Fin 8) (v : BitVec 64)
  | flowDrained (flow : FlowId)
  | colJob (cid : Nat)
  | rs (nd : Fin 2)
  | repair (nd : Fin 2)
  | ag (nd : Fin 2)
  | credit (nd : Fin 2)
  | abort (nd : Fin 2)
  | chunkInject (nd : Fin 2) (tag step : BitVec 16)
  | creditSend (nd : Fin 2) (tag step : BitVec 16)
  | colJobComplete (nd : Fin 2) (tag step : BitVec 16)
  | pcieConfigRequest (req : Fin 2 × CfgReq)
  | bar2Read (port : Fin 2) (off len : Nat)
  | bar2Write (port : Fin 2) (off : Nat) (bytes : List Byte) (poisoned : Bool)
  | qcreate (path : Path) (q : Fin 4096)
  | qdestroy (path : Path) (q : Fin 4096)
  | qdestroyDone (q : Fin 4096)
  | tqTailWrite (path : Path) (q : Fin 4096) (v : BitVec 32)
  | queueFetch (q : Fin 4096) (host : HostReply)
  | nop (cid : Nat)
  | waitGeRelease (q : Fin 4096)
  | waitStall (q : Fin 4096)
  | commandComplete (cid : Nat)
  | mvPost (cid : Nat)
  | mvHost (cid : Nat) (host : HostReply)
  | netAtomic (cid : Nat)
  | netSend (cid : Nat)
  | graphDefine (cid : Nat)
  | graphPatch (cid : Nat)
  | graphCommit (cid : Nat)
  | graphLaunch (cid : Nat)
  | graphDelete (cid : Nat)
  | graphNodeComplete (cid : Nat)
  | ctrSet (cid : Nat)
  | regWrite (cid : Nat)
  | tqCtrAddWrite (path : Path) (i : Fin 65536) (v : BitVec 64)
  | tqCtrValueWrite (path : Path) (i : Fin 65536) (v : BitVec 64)
  | tqBar2BaseWrite (path : Path) (v : BitVec 64)
  | functionLevelReset (port : Fin 2) (fn : Fin 32)
  | registerWrite (path : Path) (off : Nat) (wide : Bool) (v : BitVec 64)
  | h2dDataWrite (port : Fin 2) (ch : Fin 16) (v : BitVec 32)
  | h2dAck (port : Fin 2) (ch : Fin 8) (code : BitVec 16)
  | d2hDataWrite (port : Fin 2) (ch : Fin 8) (v : BitVec 32)
  | d2hAck (port : Fin 2) (ch : Fin 16) (code : BitVec 16)
  | fwUpdate (flashOk : Bool)
  | attest (flashOk : Bool)
  | cert
  | ppStore (flashOk : Bool)
  | ppRun
  | ppAbort
  | ppList
  | ppErase (flashOk : Bool)
  | ppTargetReady (t : TileId) (timedOut : Bool)
  | ppGroupScan (passed : BitVec 128) (repaired : List TileId) (millis : Nat)
  | externalPortOwn
  | rcvLoad (cid : Nat) (host : HostReply) (flashOk : Bool)
  | rcvCommit (cid : Nat)
  | coldStart (inp : StartInputs)
  | portRelease (port : Fin 2)
  | full (path : Path)
  | dieGo (path : Path) (die : Die)
  | smbusReset
  | fullReset (inp : StartInputs)
  | watchdogUpdate
  | watchdogExpiry
  | tripRestart
  | perst (port : Fin 2)
  | hotReset (port : Fin 2)
  | retire (path : Path) (t : TileId)
  | retirement (t : TileId)
  | perstDeassertion (port : Fin 2)
  | externalPortRelease
  | sketchRegionWrite (image : Image)
  | alwaysOnDomainLoss
  deriving DecidableEq, Repr

end Sys2Proof
end

