-- ==== Sys2Proof/Machine/Bits.lean ====
section
/-! DEFINITION. Sparse tables, bit fields, sign extension and byte order: the helpers every chapter uses. -/
namespace Sys2Proof.Machine

/-- What a table reads at a key; `d` is what an unlisted key reads as. -/
def tget {α : Type} (d : Nat → α) : Table α → Nat → α
  | [], k => d k
  | (i, v) :: rest, k => if k = i then v else tget d rest k

/-- A table without a key. -/
def tdel {α : Type} (t : Table α) (k : Nat) : Table α := t.filter fun e => decide (e.1 ≠ k)

/-- A table with a new key put in its place. -/
def tput {α : Type} : Table α → Nat → α → Table α
  | [], k, v => [(k, v)]
  | (i, w) :: rest, k, v => if k < i then (k, v) :: (i, w) :: rest else (i, w) :: tput rest k v

/-- A table with one key written. Writing what an unlisted key reads as removes the entry, so that equal stores
are equal data. -/
def tset {α : Type} [DecidableEq α] (d : Nat → α) (t : Table α) (k : Nat) (v : α) : Table α :=
  if v = d k then tdel t k else tput (tdel t k) k v

/-- A table with the keys `a` to `a + n − 1` back at what unlisted keys read as. -/
def tclear {α : Type} (t : Table α) (a n : Nat) : Table α :=
  t.filter fun e => decide (e.1 < a) || decide (a + n ≤ e.1)

/-- The canonical form of a table: keys strictly rising from `lo` on, no entry equal to the default. -/
def twfFrom {α : Type} [DecidableEq α] (d : Nat → α) : Nat → Table α → Bool
  | _, [] => true
  | lo, (i, v) :: rest => decide (lo ≤ i) && !decide (v = d i) && twfFrom d (i + 1) rest

/-- The canonical form of a whole table. -/
def twf {α : Type} [DecidableEq α] (d : Nat → α) (t : Table α) : Bool := twfFrom d 0 t

/-- Bits [hi:lo] of a number (R3). -/
def bitsN (v hi lo : Nat) : Nat := (v >>> lo) % 2 ^ (hi + 1 - lo)

/-- Bit n of a number. -/
def bitN (v n : Nat) : Bool := v.testBit n

/-- Bits [hi:lo] of a register-file entry, as a number. -/
def field (w : Word) (hi lo : Nat) : Nat := bitsN w.toNat hi lo

/-- Bit n of a register-file entry. -/
def flag (w : Word) (n : Nat) : Bool := w.toNat.testBit n

/-- A register-file entry with bits [hi:lo] replaced. -/
def putField (w : Word) (hi lo v : Nat) : Word :=
  let m := (BitVec.ofNat 64 (2 ^ (hi + 1 - lo) - 1)) <<< lo
  (w &&& ~~~m) ||| ((BitVec.ofNat 64 (v % 2 ^ (hi + 1 - lo))) <<< lo)

/-- A register-file entry with one bit set or cleared. -/
def putFlag (w : Word) (n : Nat) (b : Bool) : Word := putField w n n (if b then 1 else 0)

/-- A two's-complement number of `n` bits as an integer. -/
def signed (n v : Nat) : Int :=
  if v % 2 ^ n < 2 ^ (n - 1) then Int.ofNat (v % 2 ^ n) else Int.ofNat (v % 2 ^ n) - Int.ofNat (2 ^ n)

/-- An integer as a two's-complement number of `n` bits. -/
def unsigned (n : Nat) (i : Int) : Nat := (i % (2 ^ n : Int)).toNat

/-- A little-endian byte string as a number (R4). -/
def leNat : List Byte → Nat
  | [] => 0
  | b :: r => b.toNat + 256 * leNat r

/-- `n` bytes of a number, little-endian (R4). -/
def natLe : Nat → Nat → List Byte
  | 0, _ => []
  | n + 1, v => BitVec.ofNat 8 v :: natLe n (v / 256)

/-- Bytes [hi:lo] of a record, as a number. -/
def bytesN (bs : List Byte) (hi lo : Nat) : Nat := leNat ((bs.drop lo).take (hi + 1 - lo))

/-- Byte i of a record. -/
def byteAt (bs : List Byte) (i : Nat) : Nat := (bs.getD i 0).toNat

/-- The first of two values that is present. -/
def firstSome {α : Type} : Option α → Option α → Option α
  | some a, _ => some a
  | none, b => b

/-- The numbers a to a + n − 1. -/
def span (a n : Nat) : List Nat := (List.range n).map (a + ·)

/-- ceil(a / b), for b > 0. -/
def ceilDiv (a b : Nat) : Nat := (a + b - 1) / b

/-- Update of the i-th element of a list; a list that is too short stays as it is. -/
def listSet {α : Type} : List α → Nat → α → List α
  | [], _, _ => []
  | _ :: r, 0, v => v :: r
  | a :: r, n + 1, v => a :: listSet r n v

end Sys2Proof.Machine
end

