-- ==== Sys2Proof/Machine/State.lean ====
section
/-! DEFINITION. The state of the module: every register, memory, queue, buffer and unit the spec gives it, as
plain data, and the state right after reset. Registers of register space stand in ONE register file, keyed by
their register-space offset (R25, R45 and the register tables of every chapter); what those registers only mirror
(a unit in flight, a queue's entries, a pin) stands in the structures below and is computed at a read. -/
namespace Sys2Proof.Machine

/-- Raised by a meaning whose operands lie outside what the spec's own interface can carry (`Instr.wf` is false):
a command no host, link or unit of this module can send. Safe: the model stops where the module has no such input. -/
inductive Fault where
  | illFormed
  deriving DecidableEq, Repr

/-- `notModelled` is answered only by an arm of `exec` that has no meaning yet. Safe: the model stops. -/
inductive Refusal where
  | notModelled (mnemonic : String)
  deriving DecidableEq, Repr

/-- The status codes of R13, in code order 0x00 to 0x0F; `other` is a reserved code, which only the FAULT byte of a
tile header that software has written can bring in (R15, R93). -/
inductive Status where
  | ok | bounds | priv | format | memUe | bus | aborted | chk
  | sat | inexact | ovf | csum | dieLost | waitStall | destroyed | linkDown
  | other (code : Nat)
  deriving DecidableEq, Repr

/-- An exact extended real: a dyadic value (-1)^neg × m × 2^e, an infinity, or NaN (R49, R50). `fin true 0 _` is
the negative zero of R68. -/
inductive XReal where
  | fin (neg : Bool) (m : Nat) (e : Int)
  | inf (neg : Bool)
  | nan
  deriving DecidableEq, Repr

/-! ### The tile processor (06_tile_processor.md, 07_bundle_reference.md) -/

/-- Comparator conditions (R166, R201). -/
inductive Cond where
  | eq | ne | lt | ge | ltu | geu | never
  deriving DecidableEq, Repr

/-- A comparator's configuration (R163, R166). -/
structure Comparator where
  cond   : Cond
  srcCnt : Bool
  src    : Nat
  opImm  : Bool
  opReg  : Nat
  imm    : Word
  deriving DecidableEq, Repr

/-- Where a task-state bank stands (R171, R172, R185). `ended` still holds its bank until the task completes. -/
inductive BankPhase where
  | free | loading | preloaded | issuing | ended
  deriving DecidableEq, Repr

/-- One task-state bank (R163). `worst` is the status its completed work has so far under R14; `faulted` is set by
the first task fault (R189); `aborted` by a discard or QDESTROY (R190). `predBad`: the task launched before this one
failed before it could run (R172). -/
structure Bank where
  phase   : BankPhase
  pc      : BitVec 10
  s       : Table Word
  a       : Table Addr
  d       : Table Addr
  c       : Table (BitVec 32)
  cmps    : Table Comparator
  pinBase : Nat
  pinLen  : Nat
  pinned  : Bool
  cid     : Nat
  kernel  : Bool
  serial  : Bool
  worst   : Status
  faulted : Bool
  aborted : Bool
  predBad : Bool
  deriving DecidableEq, Repr

/-- The header fields of a queued slot command, with the wait value taken at issue (R197). -/
structure SlotHdr where
  sigEn   : Bool
  sigEv   : Nat
  waitEn  : Bool
  waitEv  : Nat
  waitVal : BitVec 32
  deriving DecidableEq, Repr

/-- Which product or drain a matrix command is (R205). -/
inductive MOp where
  | f | dx | dw | drain
  deriving DecidableEq, Repr

/-- A matrix plate as captured at issue, bases after the overrides of R199 (R115, R208). -/
structure MPlate where
  overwrite : Bool
  fmtA : Nat
  fmtB : Nat
  scaledA : Bool
  scaledB : Bool
  depth : Nat
  transA : Bool
  transB : Bool
  drain : Bool
  clear : Bool
  ofmt : Nat
  rnd : Nat
  given : Bool
  axisCols : Bool
  zout : Bool
  deriv : Bool
  zfmt : Nat
  stencil : Nat
  m : Nat
  n : Nat
  k : Nat
  aBase : Nat
  aStride : Nat
  saBase : Nat
  saStride : Nat
  bBase : Nat
  bStride : Nat
  sbBase : Nat
  sbStride : Nat
  accBase : Nat
  accStride : Nat
  oBase : Nat
  oStride : Nat
  osBase : Nat
  osStride : Nat
  zBase : Nat
  zStride : Nat
  zsBase : Nat
  zsStride : Nat
  s1 : BitVec 32
  s2 : BitVec 32
  tdst : BitVec 32
  tid : BitVec 32
  seed : Word
  deriving DecidableEq, Repr

/-- The vector operations (R211). -/
inductive VOp where
  | cvt | add | mul | fma | axpy | max | min | sten | dsten | rsum | rmax | sent | tload
  deriving DecidableEq, Repr

/-- A vector plate as captured at issue (R212). -/
structure VPlate where
  fmtX : Nat
  fmtY : Nat
  fmtD : Nat
  rnd : Nat
  scaledX : Bool
  scaledD : Bool
  given : Bool
  accX : Bool
  stencil : Nat
  depth : Nat
  rows : Nat
  cols : Nat
  xBase : Nat
  xStride : Nat
  yBase : Nat
  yStride : Nat
  dBase : Nat
  dStride : Nat
  xsBase : Nat
  dsBase : Nat
  c : BitVec 32
  tdst : BitVec 32
  tid : BitVec 32
  seed : Word
  deriving DecidableEq, Repr

/-- What a command of a unit queue does (R205 to R216). `xfer` names its channel, its descriptor's scratchpad
offset, its accumulator range in bytes if it has one, and the two kernel-only flags. -/
inductive Work where
  | mm (op : MOp) (plate : MPlate)
  | accInit (base : Nat) (preset : Bool) (anchor : Int)
  | vop (op : VOp) (plate : VPlate)
  | xfer (ch : Nat) (desc : Nat) (range : Option (Nat × Nat)) (force regsp : Bool)
  | signal (ctr : Nat) (val : Word)
  | waitge (ctr : Nat) (val : Word)
  | cset (ctr : Nat) (val : Word)
  deriving DecidableEq, Repr

/-- A command in a unit queue or in flight, with its sequence number (R136), the task that issued it (the cid of
its launch) and the PC of its bundle. -/
structure QCmd where
  seq  : Nat
  cid  : Nat
  pc   : Nat
  hdr  : SlotHdr
  work : Work
  deriving DecidableEq, Repr

/-- The registers all slots of a bundle read (R164). -/
structure RegView where
  s    : Table Word
  a    : Table Addr
  d    : Table Addr
  c    : Table (BitVec 32)
  cmps : Table Comparator
  deriving DecidableEq, Repr

/-- A bundle whose issue is under way: the model's rows are single slots of one indivisible issue (R164, R169).
`todo` lists the slots that have not acted; `marks` the AG.INC marks (R204); `seqBase` the sequence number the
first queued slot of this issue takes; `words` and `plates` (by slot) the bundle as fetched; `left` the repeats still
to issue after this one. [log 7: DESIGN CHOICE] -/
structure Issue where
  words   : List Word
  plates  : List (Nat × List Byte)
  left    : Nat
  view    : RegView
  todo    : List Nat
  queued  : List Nat
  seqBase : Nat
  marks   : List Nat
  ending  : Bool
  nextPc  : BitVec 10
  deriving DecidableEq, Repr

/-- A bundle under REP: repeats still to issue, and the words and plates captured at fetch (R169, R198). -/
structure RepState where
  left  : Nat
  words : List Word
  plates : List (Nat × List Byte)
  deriving DecidableEq, Repr

/-- A scalar access on the scalar port whose word is not yet granted (R182). -/
structure ScalarAcc where
  bank  : Bool
  load  : Bool
  off   : Nat
  size  : Nat
  sreg  : Nat
  data  : Word
  pc    : Nat
  deriving DecidableEq, Repr

/-! ### The matrix units (04_matrix_units.md, 05_backward_engines.md) -/

/-- An operand element as read: m × 2^e with its scale, its tag: 0 finite, 1 +inf, 2 −inf, 3 NaN (R87, R89), and whether
the element counts as zero: of a W slice, whether all of its slices are 0 (R89). -/
structure OpElem where
  m   : Int
  e   : Int
  tag : Nat
  zero : Bool
  deriving DecidableEq, Repr

/-- A stationary half: the sweep it was loaded for, the block's identity, its rows over the valid positions, and its checksum row as exact
values m × 2^e per position (R122, R453). -/
structure StatHalf where
  sweep : Nat
  p     : Nat
  ks    : Nat
  slice : Nat
  rows  : List (List OpElem)
  csum  : List OpElem
  deriving DecidableEq, Repr

/-- A streamed column over the valid positions, and the T2 codes 0b10 in it (R125, R126). -/
structure StreamCol where
  elems : List OpElem
  bad   : Nat
  deriving DecidableEq, Repr

/-- A stream half: the columns of one sweep (R125). -/
structure StreamHalf where
  sweep : Nat
  cols  : List StreamCol
  deriving DecidableEq, Repr

/-- A column in the pipeline (R126, R127): its sweep and position, its operands from READ, and from MUL on the
64 row partials placed at the anchor (integer, tag) and whether a term was rounded; `bad` names a check that failed. -/
structure PipeCol where
  sweep   : Nat
  col     : Nat
  elems   : List OpElem
  parts   : List (Int × Nat)
  inexact : Bool
  bad     : Option ChkKind
  deriving DecidableEq, Repr

/-- A window half opened for one column group of one row block, bound to a tile or unbacked (R121, R130). `acc` and
`tag` are keyed by 64 × row + column. `closed` counts columns whose last ADD has passed; `skip` lists columns that
are not spilled (R140, R459); `hdrDone` tells that the header is written, `noDrain` that the half closes without a
drain (R112, R139), `cut` that an unreadable column ended an ACC.DRAIN before its last column (R207), `codes` the given
scale codes read before the half's first column drains, by offset (R210). -/
structure HalfRun where
  p : Nat
  g : Nat
  h : Nat
  base : Option Nat
  mt : Nat
  nt : Nat
  fresh : Bool
  anchor : Int
  anchored : Bool
  sat : Bool
  inexact : Bool
  nan : Bool
  chk : Bool
  fault : Nat
  sentinel : BitVec 32
  drainMax : BitVec 32
  acc : Table Int
  tag : Table Nat
  hdrRead : Bool
  filled : Nat
  opened : Bool
  closed : Nat
  drained : Nat
  spilled : Nat
  skip : List Nat
  hdrDone : Bool
  noDrain : Bool
  cut : Bool
  codes : Option (List (Nat × Nat))
  deriving DecidableEq, Repr

/-- A drain staging block: up to 32 columns of one half held for their row scales (R133). -/
structure StageBlk where
  p : Nat
  g : Nat
  h : Nat
  first : Nat
  count : Nat
  complete : Bool
  written : Nat
  deriving DecidableEq, Repr

/-- A z half-block in B0's buffer: the argument za of each element (R152, R153). -/
structure ZHalf where
  p : Nat
  g : Nat
  h : Nat
  vals : Table (BitVec 32)
  deriving DecidableEq, Repr

/-- A matrix command in flight. `fed` sweeps have entered READ whole and `fedCols` columns of the next one;
`statNext` and `streamNext` are the sweeps the next loads serve; `failAt` is the first sweep that a failed load keeps
from starting; `stop` is the fault or abort that stopped the feeder (R139, R140); `res` the status so far under R14;
`cycle` counts the command's pipeline cycles; `drainHold` the cycles that the drain is still taken by the bytes of its last column beyond
the first 256 (R133, R150); `finished` says that only the retirement is left. -/
structure MRun where
  cmd : QCmd
  cycle : Nat
  failAt : Option (Nat × Status)
  fed : Nat
  fedCols : Nat
  statNext : Nat
  streamNext : Nat
  stat : List StatHalf
  stream : List StreamHalf
  pipe : List (Option PipeCol)
  halves : List HalfRun
  stage : List StageBlk
  z : List ZHalf
  drainHold : Nat
  stop : Option Status
  abortReq : Bool
  res : Status
  finished : Bool
  deriving DecidableEq, Repr

/-- A matrix unit: its queue and the command it runs (R174, R177). -/
structure MUnitSt where
  queue : List QCmd
  run   : Option MRun
  deriving DecidableEq, Repr

/-! ### The vector unit (08_vector_unit.md) -/

/-- A chunk that has entered and not been written: the bytes it will write and what it will count. -/
structure VPend where
  chunk : Nat
  writes : List (Nat × List Byte)
  sats : Nat
  nans : Nat
  deriving DecidableEq, Repr

/-- A vector command in flight (R224). `acc` and `peak` are the running row sum and maximum (R222); `words` the
block maxima of a sentinel record so far (R236); `peakAll` the region maximum. -/
structure VRun where
  cmd : QCmd
  cycle : Nat
  entered : Nat
  pend : List VPend
  acc : XReal
  peak : XReal
  words : List (BitVec 32)
  peakAll : XReal
  stop : Option Status
  abortReq : Bool
  res : Status
  slotRec : Option (List Byte)
  finished : Bool
  deriving DecidableEq, Repr

/-! ### Scratchpad, adders and data movement (09_scratchpad_dma.md) -/

/-- A word request waiting at its sub-bank, with the number of grants cycles it has waited (R243). -/
structure SpWait where
  port : Nat
  word : Nat
  age  : Nat
  deriving DecidableEq, Repr


/-- The identity that a burst's requests and their responses carry (R262, R280): the channel, the number its descriptor
has in the channel, and the address it names. -/
structure BurstId where
  ch   : Nat
  desc : Nat
  addr : Nat
  deriving DecidableEq, Repr

/-- The element adds of one burst on their way to a memory-side adder (R283): what is still to be added, from the
address on, and the burst that sent them. -/
structure ElemAdd where
  afmt  : Nat
  addr  : Nat
  bytes : List Byte
  own   : BurstId
  deriving DecidableEq, Repr

/-- A burst of a transfer (R259): source and destination addresses and length; `idx` is its first byte or element. -/
structure Burst where
  src : Nat
  dst : Nat
  len : Nat
  idx : Nat
  deriving DecidableEq, Repr

/-- A tile add on its way to an adder (R247, R284), or bytes of a write that a pin turned back (R313): the bytes as sent,
by offset, with the burst that sent them. -/
structure TileAdd where
  src   : Table Byte
  burst : Burst
  own   : BurstId
  deriving DecidableEq, Repr

/-- A burst that reads far memory (R292): its lines whose requests have not completed, the status so far, and the lines
that have come, whose data then goes on to the burst's destination. -/
structure FarBurst where
  burst : Burst
  lines : List Nat
  status : Status
  data  : Table (List Byte)
  deriving DecidableEq, Repr

/-- Who asked for a descriptor: a ring entry, a DMA.XFER of the tile (by sequence number), or an MV.HOST command. -/
inductive DescOrigin where
  | ring (index : BitVec 16)
  | xfer (seq : Nat) (off : Nat) (regsp force : Bool)
  | host (cid : Nat) (toDevice : Bool)
  deriving DecidableEq, Repr

/-- Where a descriptor stands: fetched and checked, moving, or finished and waiting to complete. -/
inductive DescPhase where
  | fetched | moving | done
  deriving DecidableEq, Repr

/-- A descriptor in flight (R250, R259, R260). `id` is its number in the channel; `pos` counts the bytes, in traversal order, of the bursts started;
`cur` is the window offset of the indexed element under way, once its index has been read (R255); `openB` counts started bursts that an adder, a
retry or a link has not yet taken; `psns` are the packets (flow, PSN) not yet acknowledged. `status` is the status so
far, `fail` an error response on its way (R262) with its address and direction, `stop` ends the start of bursts
(R261), `byReg` tells that the ring stops with it. `settled` tells that R185 lets its writes proceed without a wait;
`again` lists the preloads to do again (tile, bank, launch); `host` are the bytes of a host-to-device transfer; `far` its
bursts that read the far tier. -/
structure Desc where
  id     : Nat
  origin : DescOrigin
  words  : List Word
  phase  : DescPhase
  pos    : Nat
  cur    : Option Nat
  openB  : Nat
  psns   : List (Nat × BitVec 32)
  status : Status
  fail   : Option (Status × Nat × Bool)
  stop   : Bool
  byReg  : Bool
  dropped : Bool
  reason : Status
  settled : Bool
  again  : List (Nat × Bool × Nat)
  host   : List Byte
  far    : List FarBurst
  deriving DecidableEq, Repr

/-- A channel beyond its registers: descriptors in flight in order, the number the next one takes, whether the write-back of its first ring
descriptor failed (R265), packets of completed descriptors still to be acknowledged (R260), what it sends again
(R313), and the MV.POST commands that wait for CONS (R390) with their status so far. -/
structure Chan where
  flight  : List Desc
  nextId  : Nat
  wbFail  : Bool
  oldPsns : List (Nat × BitVec 32)
  retry   : List TileAdd
  posts   : List (Nat × BitVec 16 × Status)
  deriving DecidableEq, Repr

/-- The running tile add of a scratchpad adder: its destination base, and the result still to be written as header. -/
structure AdderRun where
  base   : Nat
  header : List Byte
  own    : BurstId
  status : Status
  deriving DecidableEq, Repr

/-- A tile, beyond its registers and its scratchpad bytes. `launches` are the launches that wait for a bank; `prevBad`
tells that the last task that ran ended in a fault or was aborted, `predBad` that the last launch failed before it
could run (R172). -/
structure Tile where
  bank0 : Bank
  bank1 : Bank
  active : Bool
  issue : Option Issue
  rep : Option RepState
  scalar : Option ScalarAcc
  f : MUnitSt
  b0 : MUnitSt
  b1 : MUnitSt
  vq : List QCmd
  vrun : Option VRun
  dm : List QCmd
  dmFlight : List QCmd
  nextSeq : Nat
  launches : List Nat
  prevBad : Bool
  predBad : Bool
  slots : Table (List Byte)
  spWait : List SpWait
  adds : List TileAdd
  adder : Option AdderRun
  applied : List Nat
  retireReq : Bool
  ppHold : Bool
  deriving DecidableEq, Repr

/-! ### Near and far memory (10_near_and_far_memory.md) -/

/-- A regulator instance: tokens in 1/256 byte (R287). -/
abbrev Tokens := Int

/-- A far-tier request that its port holds for a line (R292): `sent` once transmitted; `own` the burst of a channel that
waits for it, none for any other requester. -/
structure CxlReq where
  line : Nat
  wr   : Option (List (Fin 64 × Byte))
  sent : Bool
  own  : Option BurstId
  deriving DecidableEq, Repr

/-- A near-memory stack beyond its registers: its repair log (as row numbers), the sectors with correctable errors since
start-up (R276), the adds waiting at its adder, and the tile add it runs, whose range it holds (R284). -/
structure Stack where
  repairLog : List Nat
  ceSectors : List Nat
  elems : List ElemAdd
  tiles : List TileAdd
  run   : Option AdderRun
  deriving DecidableEq, Repr

/-! ### The fabric (11_fabric_arbitration.md) -/

/-- An output of an arbiter on a packet's path, and the input of the arbiter by which the packet comes (R24, R304). -/
structure FabHop where
  die   : Die
  kind  : ArbKind
  idx   : Nat
  input : Nat
  deriving DecidableEq, Repr

/-- A packet in the fabric (R298 to R303): class, source index, ACTIVE, its target's address, the bytes it carries or asks
for, whether it asks for data, its partition at a controller (R286), and whether it goes on the narrow path (R277).
`path` is the outputs it has still to pass, of which it waits at the first; `back` those of its response; `lines` the
line or sector requests it has still to be granted at a controller. [log 27: DESIGN CHOICE] -/
structure FabPkt where
  cls    : FabClass
  src    : Nat
  active : Nat
  addr   : Nat
  len    : Nat
  read   : Bool
  part   : Option Nat
  narrow : Bool
  path   : List FabHop
  back   : List FabHop
  lines  : Nat
  deriving DecidableEq, Repr

/-- One output of one arbiter in one class: the credit and the grants waited of each input (R304), and the
round-robin position (R305). -/
structure Arb where
  credit : Table Int
  waited : Table Nat
  last   : Nat
  deriving DecidableEq, Repr

/-! ### Optical ports and transport (12_optical_network.md) -/

/-- Who waits for a packet's acknowledgement or response: a channel, a NET
command, or the receive-pool slot of a chunk that a job forwards (R367). -/
inductive Owner where
  | none
  | chan (own : BurstId)
  | cmd (cid : Nat)
  | ring (nd : Nat) (tag step : BitVec 16)
  deriving DecidableEq, Repr

/-- A packet that waits to be sent, or stands in the retransmit store (R333, R335): `fast` after a fast retransmit,
`rnr` while an RNR answer holds it, `due` while a retransmission waits for room on its link, `dst` where a response's data goes. -/
structure Stored where
  pkt  : Packet
  fast : Bool
  rnr  : Bool
  due  : Bool
  owner : Owner
  dst  : Nat
  deriving DecidableEq, Repr

/-- A flow context beyond its 64-byte record (R327): packets waiting to be sent, the store's copies, the receive
marks as offsets from RX_EPSN, the timer (0 = RTO) and its timeouts without progress, what the target owes as ACK,
the prior value kept for a duplicate FETCH ATOMIC (R332), whether one of its own is outstanding (R330), and the latest
CUM_PSN its peer sent (R335). [log 64: DESIGN CHOICE] -/
structure Flow where
  queue  : List Stored
  store  : List Stored
  marks  : List Nat
  rto    : Nat
  tries  : Nat
  owed   : Nat
  ackNow : Bool
  kept   : Option (BitVec 32 × List Byte)
  fetchBusy : Bool
  cumSeen : BitVec 32
  deriving DecidableEq, Repr

/-- A link (sub-port): its cumulative cell counts per buffer 2 × class + VL (R321, R322), whether the receiver is
searching for a good header, whether it is down within LINK_HOLD (R338), how often it has gone down, and in Ethernet mode
the pause its peer has asked for by priority, in units of 0.04 ns, and the priorities it has paused itself (R324). -/
structure Link where
  sent  : Table (BitVec 16)
  freed : Table (BitVec 16)
  rcvd  : Table (BitVec 16)
  out   : Table (BitVec 16)
  search : Bool
  held  : Bool
  losses : Nat
  pause : Table Nat
  xoff  : List Nat
  deriving DecidableEq, Repr

/-- A packet that has arrived by a link: decoded, and as it came; `losses` as its link had it then. -/
structure Arrival where
  pkt  : Packet
  raw  : List Byte
  losses : Nat
  port : Nat
  sub  : Nat
  cls  : WireClass
  cells : Nat
  buf  : Nat
  deriving DecidableEq, Repr

/-! ### Collectives (13_gradient_collectives.md) -/

/-- One record of an RS chunk (R347). -/
structure RsRec where
  block : Nat
  csum : BitVec 16
  grid : Int
  aexp : Nat
  ovf : Bool
  nan : Bool
  fail : Bool
  cnt : BitVec 16
  sums : List Int
  deriving DecidableEq, Repr

/-- An AG record (R349): block, scale, next grid code, SKIPPED, and the parameters. -/
structure AgRec where
  block : Nat
  psc : Nat
  gridn : Nat
  skipped : Bool
  bytes : List Byte
  deriving DecidableEq, Repr

/-- A chunk (R346) with its records decoded. -/
inductive ChunkBody where
  | rs (recs : List RsRec)
  | repair (recs : List (Nat × Int))
  | ag (recs : List AgRec)
  | credit
  | abort
  deriving DecidableEq, Repr

structure Chunk where
  wide : Bool
  round : Nat
  repaired : Bool
  status : Nat
  tag : BitVec 16
  step : BitVec 16
  shard : Nat
  first : Nat
  body : ChunkBody
  deriving DecidableEq, Repr

/-- The fields of a job record (R343). -/
structure JobRec where
  n : Nat
  pos : Nat
  nextFlow : Nat
  prevFlow : Nat
  tag : BitVec 16
  step : BitVec 16
  pool : Nat
  chunkBlk : Nat
  wide : Bool
  opt : Nat
  head : Nat
  gfmt : Nat
  pfmt : Nat
  prnd : Nat
  nb : Nat
  tid : BitVec 32
  seed : Word
  gBase : Nat
  gridBase : Nat
  pBase : Nat
  psBase : Nat
  wBase : Nat
  mBase : Nat
  vBase : Nat
  consts : List (BitVec 32)
  deriving DecidableEq, Repr

/-- A job that runs (R345, R366 to R369). `sent`, `grant` and `freed` are the cumulative slot counts of R367, `granted`
the GRANT last sent; `outq` holds chunks that wait for room at the successor, with whether each is an injection and
whether it stands in a receive slot; `nextBlk` counts the blocks whose round-0 passes this position has begun;
`pendingAg` the updated records not yet sent; `agDone` the blocks whose AG record is written, `ownDone` those committed
as owner. `stopped`: an ABORT was seen or sent. -/
structure Job where
  cid : Nat
  nd : Nat
  part : Nat
  recAddr : Nat
  jrec : JobRec
  sent : BitVec 16
  grant : BitVec 16
  freed : BitVec 16
  granted : BitVec 16
  outq : List (Chunk × Bool × Bool)
  nextBlk : Nat
  pendingAg : List AgRec
  agDone : Nat
  ownDone : Nat
  repaired : Bool
  agRepaired : Bool
  faults : List Status
  stopped : Bool
  byPeer : Bool
  nanBlk : Nat
  repairs : Nat
  fallback : Nat
  deriving DecidableEq, Repr

/-- A pending abort (R369). -/
structure PendAbort where
  tag : BitVec 16
  step : BitVec 16
  status : Nat
  deriving DecidableEq, Repr

/-! ### Queues and graphs (14_host_queues.md) -/

/-- Where a command came from: a queue, with its sequence number, or a node of a graph launch. -/
inductive Origin where
  | queue (q : Nat) (seq : Nat)
  | node (launch : Nat) (node : Nat)
  deriving DecidableEq, Repr

/-- Where a fetched command stands: waiting at the head (R387), passed to its engine, running there, or with its
final status. -/
inductive CmdPhase where
  | waiting | passed | running
  | done (st : Status)
  deriving DecidableEq, Repr

/-- A fetched command (R383, R386). `stalled` tells that its wait has raised its WAIT_STALL (R394), `abortReq` that a
destroy or an aborted launch has asked its engine to abort it (R397, R404). -/
structure Cmd where
  cid    : Nat
  origin : Origin
  engine : Nat
  kernel : Bool
  part   : Nat
  bytes  : List Byte
  phase  : CmdPhase
  stalled : Bool
  abortReq : Bool
  deriving DecidableEq, Repr

/-- A queue beyond its registers: the next sequence number, and sequence numbers completed past DONE_SEQ (R382). -/
structure Queue where
  nextSeq : Nat
  ahead   : List Nat
  deriving DecidableEq, Repr

/-- A graph node's record (R400). -/
structure Node where
  bytes  : List Byte
  target : Nat
  npred  : Nat
  succ   : List Nat
  slot   : Nat
  deriving DecidableEq, Repr

/-- A version of a graph (R402): `number` none while pending; `live` launches in flight. -/
structure Version where
  graph   : Nat
  number  : Nat
  pending : Bool
  current : Bool
  launches : Nat
  nodes   : List Node
  deriving DecidableEq, Repr

/-- The state of a node within a launch (R403). -/
inductive NodePhase where
  | unreleased | held | posted
  | done (st : Status)
  deriving DecidableEq, Repr

/-- A graph launch in flight (R403). -/
structure GLaunch where
  id      : Nat
  cid     : Nat
  engine  : Nat
  version : Version
  rem     : List Nat
  phase   : List NodePhase
  kernel  : Bool
  func    : Nat
  deriving DecidableEq, Repr

/-! ### Mailboxes, flash and start-up (15, 16, 17) -/

/-- One mailbox channel in one direction (R412). -/
structure Mbox where
  data : BitVec 32
  isFull : Bool
  acked : Bool
  overrun : Bool
  code : BitVec 16
  deriving DecidableEq, Repr

/-- The fields of the sketch (R434). -/
structure Sketch where
  format : Nat
  interleave : Bool
  partition : Bool
  owner : Fin 2
  profile : BitVec 2
  domainEn : BitVec 25
  bar2Log2 : Nat
  s0 : List Nat
  s1 : List Nat
  s2 : List Nat
  etherType : BitVec 16
  pfc : Bool
  pcpReq : BitVec 3
  pcpRsp : BitVec 3
  pcpCol : BitVec 3
  macBase : BitVec 48
  ports : List (BitVec 8)
  regs : List (BitVec 32)
  parts : List (BitVec 32)
  reservedZero : Bool
  deriving DecidableEq, Repr

/-- A proof-pack slot (R467, R468). -/
structure PackSlot where
  kind : Nat
  packId : BitVec 32
  image : Image
  deriving DecidableEq, Repr

/-- The 8 GiB flash (R432). -/
structure Flash where
  fwImage : Image
  fwValid : Bool
  fwSvnMin : Nat
  sketchImage : Image
  sketch : Sketch
  sketchSvn : Nat
  sketchSvnMin : Nat
  sigIndex : Nat
  bootCount : Nat
  retired : List Nat
  packs : Table (Option PackSlot)
  results : List (List Byte)
  deriving DecidableEq, Repr

/-- Where the module stands between power-off and service (R437 to R444). -/
inductive Mode where
  | off | running | halted | recovery | tripped
  deriving DecidableEq, Repr

/-- A proof-pack run in progress (R470). `ends` is what ends it at its next group boundary. -/
structure PpRunSt where
  port : Fin 2
  buffer : Nat
  slot : Nat
  kind : Nat
  retireOnFail : Bool
  clearOnPass : Bool
  repairOk : Bool
  targets : List Nat
  ready : List Nat
  tested : List Nat
  failed : List Nat
  skipped : List Nat
  retiredNow : List Nat
  cleared : List Nat
  repaired : List Nat
  ends : Option Status
  deriving DecidableEq, Repr

/-- A host port (R372, R373, R439): PERST#, the PCIe link, release, and of each function the Bus Master Enable bit, whether
ATS is enabled, whether AER signals ERR_NONFATAL, and the errors AER has recorded (Completer Abort, Poisoned TLP Received);
the size of BAR2 that the host has chosen, as a power of two, where it has. -/
structure HostPort where
  perst : Bool
  linkUp : Bool
  released : Bool
  busMaster : BitVec 32
  ats : BitVec 32
  aerEn : BitVec 32
  aerAbort : BitVec 32
  aerPoison : BitVec 32
  bar2 : Option Nat
  deriving DecidableEq, Repr

/-- A memory request that the module sends to a host port (R380, R390): the function whose requester it carries, the bus
address, the PASID of the queue where it has one, and whether the address goes through ATS (R372). -/
structure HostReq where
  port  : Nat
  fn    : Nat
  addr  : Nat
  pasid : Option Nat
  ats   : Bool
  deriving DecidableEq, Repr

/-- What leaves the module towards its surroundings, kept as a record: interrupt messages (R396, R417), PCIe
completions and errors (R375, R414, R439), and packets and frames put on a link. [log 128: DESIGN CHOICE] -/
inductive Emit where
  | interrupt (port : Nat) (fn : Nat) (vec : Nat)
  | pcieData (port : Nat) (bytes : List Byte)
  | unsupported (port : Nat)
  | completerAbort (port : Nat)
  | retryStatus (port : Nat)
  | configDone (port : Nat)
  | poisonedTlp (port : Nat)
  | frame (port : Nat) (sub : Nat) (bytes : List Byte)
  | hostWrite (req : HostReq) (bytes : List Byte)
  | hostRead (req : HostReq) (len : Nat)
  | errNonfatal (port : Nat) (fn : Nat)
  | configData (port : Nat) (value : Nat)
  | invalidated (port : Nat) (fn : Nat)
  deriving DecidableEq, Repr

/-- The power stage and governor beyond their registers (R33 to R41): the samples of the step under way, the count of
low steps, the cut order (0 compute, 1 memory, 2 network), whether a restore is due, the cap and profile in effect
(R41), and for each die whether R39 holds it hot. -/
structure Power where
  samples  : List Nat
  lowSteps : Nat
  order    : List Nat
  restoreDue : Bool
  cap      : Nat
  profile  : Nat
  hot      : List Bool
  deriving DecidableEq, Repr

/-- The whole module. `free` counts the free values drawn so far: the model's own field, no part of the spec.
`fab` are the packets in the fabric in the order in which they reached the output they wait at, `turns` the class each
output served last (R301), `mgrants` each controller's grants in this MCLK, `netSlots` the transmit slots of each network
die and of its collective engine so far (R35), `mvTurn` and `qTurn` the channel a mover and the queue an engine served last (R268, R314).
`domainLost` are the clock domains lost since start-up (R44), `tileMap` the physical tile of each tile number (R18).
`resetDue` is a full reset on its way (R441, R442), with whether the mirror watchdog started it; `watchdog` tells that
the mirror watchdog watches (R443); `rcvErased` that recovery has erased the firmware slot (R425); `applied` is the sketch in force, `appliedImage` its signed image (R427, R436). -/
structure State where
  pending : List Instr
  free    : Nat
  regs    : Table Word
  mem     : Table Byte
  ecc     : Table Ecc
  mode    : Mode
  alwaysOn : Bool
  resetDue : Option Bool
  watchdog : Bool
  power   : Power
  flash   : Flash
  fwRunning : Image
  applied : Option Sketch
  appliedImage : Image
  seamRetrain : List Nat
  domainLost : List Nat
  tileMap : List Nat
  tiles   : Table Tile
  chans   : Table Chan
  hbm     : Table Stack
  tokens  : Table Tokens
  cxl     : Table (List CxlReq)
  fab     : List FabPkt
  turns   : Table Nat
  arbs    : Table Arb
  credits : Table Int
  mgrants : Table Nat
  netSlots : Table Nat
  mvTurn  : Table Nat
  flows   : Table Flow
  links   : Table Link
  arrived : List (Nat × Arrival)
  forward : List (Nat × Arrival)
  jobs    : List Job
  aborts  : List (Nat × PendAbort)
  cmds    : List Cmd
  nextCid : Nat
  queues  : Table Queue
  qTurn   : Table Nat
  versions : List Version
  glaunches : List GLaunch
  graphNo : Table Nat
  mbox    : Table Mbox
  mboxRegs : Table (BitVec 32)
  secure  : List (Fin 2 × Fin 16)
  d2hHeld : List (Fin 2 × BitVec 32)
  ppRun   : Option PpRunSt
  rcvErased : Bool
  ports   : Table HostPort
  msix    : Table Word
  msixPend : List (Nat × Nat × Nat)
  out     : List Emit
  deriving DecidableEq, Repr

/-! ### What unlisted keys of the tables read as, and the state after reset -/

/-- A comparator after a launch: "never" (R171). -/
def Comparator.reset : Comparator := ⟨.never, false, 0, false, 0, 0⟩

/-- A task-state bank that holds no task. [log 134: DEDUCED] -/
def Bank.reset : Bank :=
  { phase := .free, pc := 0, s := [], a := [], d := [], c := [], cmps := [], pinBase := 0, pinLen := 0,
    pinned := false, cid := 0, kernel := false, serial := false, worst := .ok, faulted := false, aborted := false,
    predBad := false }

/-- A matrix unit with nothing to do. -/
def MUnitSt.reset : MUnitSt := ⟨[], none⟩

/-- A tile after start-up (R437): no task, empty queues, no stencil record. [log 134: DEDUCED] -/
def Tile.reset : Tile :=
  { bank0 := Bank.reset, bank1 := Bank.reset, active := false, issue := none, rep := none, scalar := none,
    f := MUnitSt.reset, b0 := MUnitSt.reset, b1 := MUnitSt.reset, vq := [], vrun := none, dm := [], dmFlight := [],
    nextSeq := 0, launches := [], prevBad := false, predBad := false, slots := [], spWait := [], adds := [], adder := none,
    applied := [], retireReq := false, ppHold := false }

/-- A channel with nothing in flight. -/
def Chan.reset : Chan := ⟨[], 0, false, [], [], []⟩

/-- A stack with nothing logged. -/
def Stack.reset : Stack := ⟨[], [], [], [], none⟩

/-- An arbiter output before its first grant. -/
def Arb.reset : Arb := ⟨[], [], 0⟩

/-- A flow context with nothing queued. -/
def Flow.reset : Flow := ⟨[], [], [], 0, 0, 0, false, none, false, 0⟩

/-- A link that has carried nothing. -/
def Link.reset : Link := ⟨[], [], [], [], false, false, 0, [], []⟩

/-- A queue that has fetched nothing; DONE_SEQ and the next sequence number start at 0 and 1 (R379, R382). -/
def Queue.reset : Queue := ⟨1, []⟩

/-- An empty mailbox channel (R411). -/
def Mbox.reset : Mbox := ⟨0, false, false, false, 0⟩

/-- A host port before start-up. PERST# deasserted and bus mastering on stand for what the host sets; ATS and error
reporting are off, as PCI Express resets them. [log 5: PRESUMED] [log 6: DESIGN CHOICE] -/
def HostPort.reset : HostPort := ⟨false, false, false, 0xFFFFFFFF, 0, 0, 0, 0, none⟩

/-- The power stage and governor before the first sample: cap 1,000 W (R46), profile BALANCED (R435). -/
def Power.reset : Power :=
  { samples := [], lowSteps := 0, order := [0, 1, 2], restoreDue := false, cap := 1000, profile := 0,
    hot := [false, false, false, false] }

/-- The unchanged sketch from Yunauk (R435, with R23 and R286). [log 110: DESIGN CHOICE] -/
def Sketch.unchanged : Sketch :=
  { format := 1, interleave := false, partition := false, owner := 0, profile := 0, domainEn := 0x1FFFFFF,
    bar2Log2 := 36, s0 := [96, 32], s1 := [26, 8, 30], s2 := [26, 8, 30], etherType := 0x88B5, pfc := true,
    pcpReq := 0, pcpRsp := 0, pcpCol := 0, macBase := 0, ports := List.replicate 32 0,
    regs := List.replicate 16 0,
    parts := List.replicate 16 0 ++ List.replicate 4 0x11111111 ++ [0x443322],
    reservedZero := true }

/-- The flash of a new module: no firmware update, no pack, nothing retired (R432). [log 133: DESIGN CHOICE] -/
def Flash.reset : Flash :=
  { fwImage := [], fwValid := true, fwSvnMin := 0, sketchImage := [], sketch := Sketch.unchanged, sketchSvn := 0,
    sketchSvnMin := 0, sigIndex := 0, bootCount := 0, retired := [], packs := [], results := [] }

/-- The module right after reset, before start-up runs (COLD_START, R437): every register at the value of its Reset
column (an unlisted register reads so), nothing in memory, every unit empty, no command pending.
[log 10: DESIGN CHOICE] -/
def State.reset : State :=
  { pending := [], free := 0, regs := [], mem := [], ecc := [], mode := .off, alwaysOn := false, resetDue := none,
    watchdog := false, power := Power.reset, flash := Flash.reset, fwRunning := [], applied := none,
    appliedImage := [], seamRetrain := [], domainLost := [], tileMap := [], tiles := [], chans := [], hbm := [], tokens := [], cxl := [], fab := [], turns := [], arbs := [], credits := [],
    mgrants := [], netSlots := [], mvTurn := [],
    flows := [], links := [], arrived := [], forward := [], jobs := [], aborts := [], cmds := [], nextCid := 0,
    queues := [], qTurn := [], versions := [], glaunches := [], graphNo := [], mbox := [], mboxRegs := [], secure := [],
    d2hHeld := [], ppRun := none, rcvErased := false, ports := [], msix := [], msixPend := [], out := [] }

end Sys2Proof.Machine
end

