-- ==== Sys2Proof/Machine/Num.lean ====
section
/-! DEFINITION. Number formats, exact values and the one rounding (02_number_formats.md, R49 to R74). -/
namespace Sys2Proof.Machine

/-! ### Exact values -/

/-- +0. -/
def XReal.zero : XReal := .fin false 0 0

/-- Whether a value is a zero of either sign. -/
def XReal.isZero : XReal → Bool
  | .fin _ m _ => m == 0
  | _ => false

/-- Whether a value is finite. -/
def XReal.isFin : XReal → Bool
  | .fin _ _ _ => true
  | _ => false

/-- The sign, of zeros and infinities too. -/
def XReal.neg? : XReal → Bool
  | .fin n _ _ => n
  | .inf n => n
  | .nan => false

/-- −x. -/
def XReal.negate : XReal → XReal
  | .fin n m e => .fin (!n) m e
  | .inf n => .inf (!n)
  | .nan => .nan

/-- |x|. -/
def XReal.abs : XReal → XReal
  | .fin _ m e => .fin false m e
  | .inf _ => .inf false
  | .nan => .nan

/-- A signed integer times a power of two; the zero is +0. -/
def XReal.ofInt (i : Int) (e : Int) : XReal := .fin (decide (i < 0)) i.natAbs e

/-- The integer m with its sign, aligned to exponent `e0` ≤ e. -/
def alignInt (neg : Bool) (m : Nat) (e e0 : Int) : Int :=
  let v : Int := Int.ofNat (m * 2 ^ (e - e0).toNat)
  if neg then -v else v

/-- The exact product (R219): infinities and NaN as IEEE 754, the sign of a zero by exclusive or. -/
def XReal.mul : XReal → XReal → XReal
  | .nan, _ => .nan
  | _, .nan => .nan
  | .inf a, .inf b => .inf (a != b)
  | .inf a, .fin b m _ => if m == 0 then .nan else .inf (a != b)
  | .fin a m _, .inf b => if m == 0 then .nan else .inf (a != b)
  | .fin a m e, .fin b n f => .fin (a != b) (m * n) (e + f)

/-- The exact sum (R219): a zero sum is +0 unless both terms are −0. -/
def XReal.add : XReal → XReal → XReal
  | .nan, _ => .nan
  | _, .nan => .nan
  | .inf a, .inf b => if a == b then .inf a else .nan
  | .inf a, .fin _ _ _ => .inf a
  | .fin _ _ _, .inf b => .inf b
  | .fin a m e, .fin b n f =>
    let e0 := min e f
    let s := alignInt a m e e0 + alignInt b n f e0
    if s = 0 then .fin (a && b && m == 0 && n == 0) 0 0 else .ofInt s e0

/-- a < b on values that are not NaN; zeros compare equal. -/
def XReal.lt : XReal → XReal → Bool
  | .nan, _ => false
  | _, .nan => false
  | .inf a, .inf b => a && !b
  | .inf a, .fin _ _ _ => a
  | .fin _ _ _, .inf b => !b
  | .fin a m e, .fin b n f =>
    let e0 := min e f
    decide (alignInt a m e e0 < alignInt b n f e0)

/-- The larger of two values; NaN if either is NaN; +0 is larger than −0 (R219). -/
def XReal.max (a b : XReal) : XReal :=
  match a, b with
  | .nan, _ => .nan
  | _, .nan => .nan
  | a, b =>
    if a.isZero && b.isZero then (if a.neg? then b else a)
    else if a.lt b then b else a

/-- The smaller of two values (R219). -/
def XReal.min (a b : XReal) : XReal := (a.negate.max b.negate).negate

/-- floor(log2 (n / d)) for n, d > 0. -/
def log2Frac (n d : Nat) : Int :=
  let k : Int := Int.ofNat n.log2 - Int.ofNat d.log2
  let ge := if 0 ≤ k then decide (d * 2 ^ k.toNat ≤ n) else decide (d ≤ n * 2 ^ (-k).toNat)
  if ge then k else k - 1

/-- floor(log2 |x|) of a finite nonzero value. -/
def XReal.log2 : XReal → Int
  | .fin _ m e => Int.ofNat m.log2 + e
  | _ => 0

/-- An exact quotient: (-1)^neg × n / d × 2^e with d > 0, or a special. -/
inductive QReal where
  | fin (neg : Bool) (n d : Nat) (e : Int)
  | inf (neg : Bool)
  | nan
  deriving DecidableEq, Repr

/-- Exact division as IEEE 754 divides (R63): by zero, infinity and NaN too. -/
def XReal.div : XReal → XReal → QReal
  | .nan, _ => .nan
  | _, .nan => .nan
  | .inf _, .inf _ => .nan
  | .inf a, .fin b _ _ => .inf (a != b)
  | .fin a _ _, .inf b => .fin (a != b) 0 1 0
  | .fin a m e, .fin b n f =>
    if n == 0 then (if m == 0 then .nan else .inf (a != b))
    else .fin (a != b) m n (e - f)

/-- An exact value as a quotient. -/
def XReal.toQ : XReal → QReal
  | .fin a m e => .fin a m 1 e
  | .inf a => .inf a
  | .nan => .nan

/-- A quotient times 2^k. -/
def QReal.scale (k : Int) : QReal → QReal
  | .fin a n d e => .fin a n d (e + k)
  | q => q

/-! ### Rounding (R64, R65, R69, R70) -/

/-- Rounding modes; `up` is the rounding toward +inf of magnitudes that R111 and R236 use. -/
inductive Rnd where
  | rne | rz | up
  | sr (r : Nat)
  deriving DecidableEq, Repr

/-- The stochastic generator of R69: the 32-bit draw for a seed, tensor identifier and element index. -/
def srDraw (seed : Word) (tid : BitVec 32) (index : Nat) : Nat :=
  let c1 : Word := 0xA3C59E174B2D6F81
  let c2 : Word := 0xE7D31B6A9C4528F3
  let c3 : Word := 0xB15EC0A73D9264CB
  let z := seed ^^^ (tid.setWidth 64 * c1) ^^^ (BitVec.ofNat 64 index <<< 16)
  let z := z ^^^ (z >>> 32)
  let z := z * c2
  let z := z ^^^ (z >>> 29)
  let z := z * c3
  let z := z ^^^ (z >>> 32)
  (z >>> 32).toNat

/-- The integer nearest to num / den by a mode, magnitudes only (R65, R70). -/
def roundQuot (mode : Rnd) (num den : Nat) : Nat :=
  let q := num / den
  let r := num % den
  if r = 0 then q else
  match mode with
  | .rz => q
  | .up => q + 1
  | .rne => if den < 2 * r then q + 1 else if 2 * r < den then q else if q % 2 = 0 then q else q + 1
  | .sr d => if d < r * 2 ^ 32 / den then q + 1 else q

/-- n / d × 2^e rounded to a multiple of 2^u: the multiple. -/
def roundAt (mode : Rnd) (n d : Nat) (e u : Int) : Nat :=
  if u ≤ e then roundQuot mode (n * 2 ^ (e - u).toNat) d
  else roundQuot mode n (d * 2 ^ (u - e).toNat)

/-- The integer nearest to i × 2^e with ties to even, and whether it is inexact (R98). -/
def placeRne (i : Int) (e : Int) : Int × Bool :=
  if 0 ≤ e then (i * 2 ^ e.toNat, false)
  else
    let den := 2 ^ (-e).toNat
    let q := roundQuot .rne i.natAbs den
    (if i < 0 then -Int.ofNat q else Int.ofNat q, i.natAbs % den != 0)

/-- A binary floating-point layout: fraction bits, the exponent of the smallest subnormal, the magnitude code of
the largest finite value, and the sign bit's place. -/
structure FpFmt where
  p : Nat
  umin : Int
  maxCode : Nat
  width : Nat
  deriving DecidableEq, Repr

def fpE4M3 : FpFmt := ⟨3, -9, 0x7E, 8⟩
def fpE5M2 : FpFmt := ⟨2, -16, 0x7B, 8⟩
def fpE2M1 : FpFmt := ⟨1, -1, 0x7, 4⟩
def fpBF16 : FpFmt := ⟨7, -133, 0x7F7F, 16⟩
def fpFP16 : FpFmt := ⟨10, -24, 0x7BFF, 16⟩
def fpFP32 : FpFmt := ⟨23, -149, 0x7F7FFFFF, 32⟩

/-- The magnitude code nearest to n / d × 2^e, with the exponent range unbounded above (R65). -/
def fpRound (f : FpFmt) (mode : Rnd) (n d : Nat) (e : Int) : Nat :=
  if n = 0 then 0 else
  let u := max (log2Frac n d + e - Int.ofNat f.p) f.umin
  (u - f.umin).toNat * 2 ^ f.p + roundAt mode n d e u

/-- The value of a finite magnitude code. -/
def fpValue (f : FpFmt) (neg : Bool) (code : Nat) : XReal :=
  let ex := code / 2 ^ f.p
  let fr := code % 2 ^ f.p
  if ex = 0 then .fin neg fr f.umin else .fin neg (2 ^ f.p + fr) (f.umin + Int.ofNat ex - 1)

/-! ### Element formats (R52 to R58) -/

/-- Element width in bits (R52); 0 for formats without elements of a fixed width here. -/
def fmtBits (f : Nat) : Nat :=
  match f with
  | 0 => 8 | 1 => 8 | 2 => 4 | 3 => 8 | 4 => 4 | 5 => 2
  | 6 => 16 | 7 => 16 | 8 => 32 | 9 => 32 | _ => 0

/-- Narrow formats: codes 0x0 to 0x5 (R49). -/
def isNarrow (f : Nat) : Bool := decide (f < 6)

/-- BF16, FP16 and FP32 (R58). -/
def isWide (f : Nat) : Bool := f == 6 || f == 7 || f == 8

/-- Formats that always carry a block scale (R60). -/
def alwaysScaled (f : Nat) : Bool := f == 2 || f == 4 || f == 5

/-- Scale exponent emax (R53 to R56). -/
def emax (f : Nat) : Int :=
  match f with
  | 0 => 8 | 1 => 15 | 2 => 2 | 3 => 6 | 4 => 2 | _ => 0

/-- Decodes an FP32, BF16 or FP16 code. -/
def decodeWide (f : FpFmt) (code : Nat) : XReal :=
  let neg := code.testBit (f.width - 1)
  let mag := code % 2 ^ (f.width - 1)
  if mag ≤ f.maxCode then fpValue f neg mag
  else if mag = f.maxCode + 1 then .inf neg else .nan

/-- The value of an FP32 code. -/
def fp32 (c : BitVec 32) : XReal := decodeWide fpFP32 c.toNat

/-- The decoded element d of R49 for a format code; P2 is the exact sum of R82. -/
def decodeElem (f code : Nat) : XReal :=
  match f with
  | 0 => let mag := code % 128
         if mag = 0x7F then .nan else fpValue fpE4M3 (code.testBit 7) mag
  | 1 => let mag := code % 128
         if mag ≤ 0x7B then fpValue fpE5M2 (code.testBit 7) mag
         else if mag = 0x7C then .inf (code.testBit 7) else .nan
  | 2 => fpValue fpE2M1 (code.testBit 3) (code % 8)
  | 3 => .ofInt (signed 8 code) 0
  | 4 => .ofInt (signed 4 code) 0
  | 5 => if code % 4 = 1 then .fin false 1 0 else if code % 4 = 3 then .fin true 1 0 else .zero
  | 6 => decodeWide fpBF16 code
  | 7 => decodeWide fpFP16 code
  | 8 => decodeWide fpFP32 code
  | 9 => (decodeWide fpBF16 (code / 65536)).add (decodeWide fpBF16 (code % 65536))
  | _ => .nan

/-- A block scale's exponent B − 127 (R59). -/
def scaleExp (b : Nat) : Int := Int.ofNat b - 127

/-- An element under its block scale: 0xFF makes it NaN, a finite scale leaves a NaN or infinity (R62). -/
def scaledElem (f code b : Nat) : XReal :=
  if b = 255 then .nan else
  match decodeElem f code with
  | .fin n m e => .fin n m (e + scaleExp b)
  | x => x

/-- The operand integer, exponent and tag of an element (R87, R89), under a scale code. -/
def opElem (f code b : Nat) : OpElem :=
  match scaledElem f code b with
  | .fin n m e => ⟨if n then -Int.ofNat m else Int.ofNat m, e, 0, m == 0⟩
  | .inf n => ⟨0, 0, if n then 2 else 1, false⟩
  | .nan => ⟨0, 0, 3, false⟩

/-- emin of a narrow format (R87). -/
def emin (f : Nat) : Int :=
  match f with
  | 0 => -9 | 1 => -16 | 2 => -1 | _ => 0

/-! ### Writing elements (R63 to R68) -/

/-- What a conversion wrote for one element: its code, whether it saturated, and whether it asks its whole block
to become NaN (R66, R67). -/
structure Conv where
  code : Nat
  sat  : Bool
  blockNan : Bool
  deriving DecidableEq, Repr

/-- A floating result: the narrow ones saturate, the wide ones overflow as IEEE 754 states (R66, R68). -/
def convFp (f : FpFmt) (narrow : Bool) (mode : Rnd) (neg : Bool) (n d : Nat) (e : Int) : Conv :=
  let sgn := if neg then 2 ^ (f.width - 1) else 0
  let c := fpRound f mode n d e
  if c ≤ f.maxCode then ⟨sgn + c, false, false⟩
  else if narrow then ⟨sgn + f.maxCode, true, false⟩
  else match mode with
    | .rz => ⟨sgn + f.maxCode, false, false⟩
    | _ => ⟨sgn + f.maxCode + 1, false, false⟩

/-- An integer result of `w` bits (R66). -/
def convInt (w : Nat) (mode : Rnd) (neg : Bool) (n d : Nat) (e : Int) : Conv :=
  let q := roundAt mode n d e 0
  let v : Int := if neg then -Int.ofNat q else Int.ofNat q
  let hi : Int := 2 ^ (w - 1) - 1
  let lo : Int := -(2 ^ (w - 1))
  if v > hi then ⟨unsigned w hi, true, false⟩
  else if v < lo then ⟨unsigned w lo, true, false⟩
  else ⟨unsigned w v, false, false⟩

/-- A ternary result (R56, R66), rounded on the grid of the integers: code 0b10 is never written. [log 161: DEDUCED] -/
def convT2 (mode : Rnd) (neg : Bool) (n d : Nat) (e : Int) : Conv :=
  let q := roundAt mode n d e 0
  if q = 0 then ⟨0, false, false⟩ else ⟨if neg then 3 else 1, decide (1 < q), false⟩

/-- One element written in a format, from the exact quotient by its scales (R63, R66, R67). `scaled` tells a scaled
INT8 from an unscaled one. -/
def convElem (f : Nat) (scaled : Bool) (mode : Rnd) (q : QReal) : Conv :=
  match q with
  | .fin neg n d e =>
    match f with
    | 0 => convFp fpE4M3 true mode neg n d e
    | 1 => convFp fpE5M2 true mode neg n d e
    | 2 => convFp fpE2M1 true mode neg n d e
    | 3 => convInt 8 mode neg n d e
    | 4 => convInt 4 mode neg n d e
    | 5 => convT2 mode neg n d e
    | 6 => convFp fpBF16 false mode neg n d e
    | 7 => convFp fpFP16 false mode neg n d e
    | _ => convFp fpFP32 false mode neg n d e
  | .inf neg =>
    match f with
    | 0 => ⟨0x7F, false, false⟩
    | 1 => ⟨if neg then 0xFC else 0x7C, false, false⟩
    | 3 => if scaled then ⟨0, false, true⟩ else ⟨if neg then 0x80 else 0x7F, true, false⟩
    | 6 => ⟨if neg then 0xFF80 else 0x7F80, false, false⟩
    | 7 => ⟨if neg then 0xFC00 else 0x7C00, false, false⟩
    | 8 => ⟨if neg then 0xFF800000 else 0x7F800000, false, false⟩
    | _ => ⟨0, false, true⟩
  | .nan =>
    match f with
    | 0 => ⟨0x7F, false, false⟩
    | 1 => ⟨0x7F, false, false⟩
    | 3 => if scaled then ⟨0, false, true⟩ else ⟨0, true, false⟩
    | 6 => ⟨0x7FC0, false, false⟩
    | 7 => ⟨0x7E00, false, false⟩
    | 8 => ⟨0x7FC00000, false, false⟩
    | _ => ⟨0, false, true⟩

/-- The exact value rounded once to FP32 by a mode. -/
def toFp32 (mode : Rnd) (x : XReal) : BitVec 32 := BitVec.ofNat 32 (convElem 8 false mode x.toQ).code

/-- |x| rounded toward +inf to FP32: the range sentinels (R111, R236); past the range it is +inf. -/
def sentinel32 (x : XReal) : BitVec 32 := toFp32 .up x.abs

/-- a < b of two non-negative quotients n1/d1 × 2^e1 and n2/d2 × 2^e2. -/
def qLt (n1 d1 : Nat) (e1 : Int) (n2 d2 : Nat) (e2 : Int) : Bool :=
  let e0 := min e1 e2
  decide (n1 * 2 ^ (e1 - e0).toNat * d2 < n2 * 2 ^ (e2 - e0).toNat * d1)

/-- The largest magnitude among a block's finite quotients (amax of R73); 0 where it has none. [log 163: DESIGN CHOICE] -/
def amax : List QReal → QReal
  | [] => .fin false 0 1 0
  | .fin _ n d e :: rest =>
    match amax rest with
    | .fin _ n' d' e' => if qLt n' d' e' n d e then .fin false n d e else .fin false n' d' e'
    | q => q
  | _ :: rest => amax rest

/-- Whether rne(amax / 2^e) passes the destination's largest finite magnitude (R73); of T2 on the grid of the integers.
[log 161: DEDUCED] -/
def pastMax (f : Nat) (n d : Nat) (e : Int) : Bool :=
  match f with
  | 0 => decide (fpE4M3.maxCode < fpRound fpE4M3 .rne n d e)
  | 1 => decide (fpE5M2.maxCode < fpRound fpE5M2 .rne n d e)
  | 2 => decide (fpE2M1.maxCode < fpRound fpE2M1 .rne n d e)
  | 3 => decide (127 < roundAt .rne n d e 0)
  | 4 => decide (7 < roundAt .rne n d e 0)
  | _ => decide (1 < roundAt .rne n d e 0)

/-- The computed block scale code of R73 over a block's quotients. -/
def blockScale (f : Nat) (qs : List QReal) : Nat :=
  match amax qs with
  | .fin _ 0 _ _ => 0
  | .fin _ n d e =>
    let e1 := log2Frac n d + e - emax f
    let e2 := if pastMax f n d (e - e1) then e1 + 1 else e1
    (min (max e2 (-127)) 127 + 127).toNat
  | _ => 0

/-- A block as written: its scale code, its element codes, saturations, and whether it became NaN (R67, R73, R74). -/
structure BlockOut where
  scale : Nat
  codes : List Nat
  sats  : Nat
  nan   : Bool
  deriving DecidableEq, Repr

/-- Whether a non-finite element makes a scaled block of this format NaN (R67). -/
def blockBreaks (f : Nat) (qs : List QReal) : Bool :=
  (f == 2 || f == 3 || f == 4 || f == 5) &&
    qs.any fun q => match q with | .fin _ _ _ _ => false | _ => true

/-- One scaled block: quotients q_k = x_k / T_dst with their modes, under a given code or a computed one. -/
def convBlock (f : Nat) (given : Option Nat) (qs : List (QReal × Rnd)) : BlockOut :=
  let b := match given with | some b => b | none => blockScale f (qs.map (·.1))
  if b = 255 || blockBreaks f (qs.map (·.1)) then
    ⟨255, qs.map fun _ => 0, 0, true⟩
  else
    let cs := qs.map fun q => convElem f true q.2 (q.1.scale (-(scaleExp b)))
    ⟨b, cs.map (·.code), (cs.filter (·.sat)).length, false⟩

/-- Rounding field values (R64) as modes, with the draw an SR element takes. -/
def rndOf (code : Nat) (seed : Word) (tid : BitVec 32) (index : Nat) : Rnd :=
  match code with
  | 0 => .rne
  | 1 => .rz
  | _ => .sr (srDraw seed tid index)

end Sys2Proof.Machine
end

