-- ==== Sys2Proof/Config.lean ====
section
/-! DEFINITION. What an implementation fixes, and the values the spec leaves open. Every constant here is opaque:
nothing in Lean can evaluate it or prove a value of it, so a statement that holds does so for every value. -/
namespace Sys2Proof.Config

/-- GLB_ID.STEP, the silicon stepping: fused (R45). [log 11: DESIGN CHOICE] -/
opaque step : BitVec 8

/-- The n-th value the spec leaves open and the machine goes on with: nothing constrains it. -/
opaque freeValue : Nat → BitVec 64

/-- Where the pattern of gated cycles of R35 starts: the rule says only that the duty is spread evenly.
[log 13: DESIGN CHOICE] -/
opaque dutyPhase : Nat

/-- The row of a pseudo-channel in which a sector lies: the controller's choice of bank and row is no part of the
interface (R273). Arguments: the stack, the channel, the pseudo-channel, and offset[35:11]. [log 15: DESIGN CHOICE] -/
opaque rowOf : Nat → Nat → Nat → Nat → Nat

/-- Packets of one class that the receiver of a link can hold, less one: the spec gives no buffer a size (R300).
Argument: the link and class as a number. [log 151: DESIGN CHOICE] -/
opaque linkSlots : Nat → Nat

/-- Whether an XMSS signature verifies (R421, R422): the image-signing key, the signed bytes, the signature. The keys
stand in Flint's mask ROM. [log 12: DESIGN CHOICE] -/
opaque signatureGood : Nat → List (BitVec 8) → List (BitVec 8) → Bool

/-- Cells of an Ethernet link's receive buffer of a class at which it asks its peer to pause, and at or below which it lets
it go on (R324): the spec names priority flow control and no threshold. [log 158: DESIGN CHOICE] -/
opaque pfcOn : Nat
opaque pfcOff : Nat

/-- SHAKE256 with 256-bit output (R427). -/
opaque shake256 : List (BitVec 8) → List (BitVec 8)

/-- The XMSS^MT signature of the identity key with an index over a message (R426). [log 12: DESIGN CHOICE] -/
opaque identitySign : Nat → List (BitVec 8) → List (BitVec 8)

/-- The identity public key, the certificate's KEY_ID and the certificate's signature (R426, R428). -/
opaque devicePubkey : List (BitVec 8)
opaque certKey : BitVec 8
opaque certSig : List (BitVec 8)

/-- How PP_LIST writes a slot's entry (R467, R469): the rules name what it holds, VALID, KIND, PACK_ID and LENGTH, and not
where. [log 19: DESIGN CHOICE] -/
opaque slotEntry : Bool → Nat → BitVec 32 → Nat → List (BitVec 8)

/-- The module's serial number (R427), fused. [log 11: DESIGN CHOICE] -/
opaque serial : BitVec 64

/-- The sensed trim, tile-enable and lane-repair fuses (R427). -/
opaque fuses : List (BitVec 8)

/-- The tile-enable map (R18, R427): bit 68d + i is physical tile i of die d. -/
opaque tileEnable : BitVec 136

end Sys2Proof.Config
end

