-- ==== Sys2Proof/Machine/RegMap.lean ====
section
/-! DEFINITION. Register space (R25, R45 to R48 and the register tables of every chapter): which registers exist at
which offset, with the access code of every bit (R6) and their reset values. Offsets are those of the whole module;
a partition's offsets are translated before they are looked up here. -/
namespace Sys2Proof.Machine

/-- A register: its name, whether it has 64 bits, the bits of each access code of R6 (every other bit is reserved
under R7), and its reset value. -/
structure RegInfo where
  name  : String
  wide  : Bool
  rw    : Nat
  ro    : Nat
  wc    : Nat
  rc    : Nat
  wo    : Nat
  reset : Nat
  deriving DecidableEq, Repr

/-- The registers of R45 and R451 in the `GLB_` block. -/
def glbRegs : List (Nat × RegInfo) :=
  [ (0x0, ⟨"GLB_ID", false, 0, 0xFFFFFF00, 0, 0, 0, 0xE8E80000⟩),
    (0x8, ⟨"GLB_MODE", false, 0, 0x7, 0, 0, 0, 0⟩),
    (0x10, ⟨"GLB_TRIP", false, 0, 0x30, 0x7, 0, 0, 0⟩),
    (0x20, ⟨"GLB_CYCLE_CD0", true, 0, 0xFFFFFFFFFFFFFFFF, 0, 0, 0, 0⟩),
    (0x28, ⟨"GLB_CYCLE_CD1", true, 0, 0xFFFFFFFFFFFFFFFF, 0, 0, 0, 0⟩),
    (0x30, ⟨"GLB_CYCLE_ND0", true, 0, 0xFFFFFFFFFFFFFFFF, 0, 0, 0, 0⟩),
    (0x38, ⟨"GLB_CYCLE_ND1", true, 0, 0xFFFFFFFFFFFFFFFF, 0, 0, 0, 0⟩),
    (0x40, ⟨"GLB_BOOT", false, 0, 0xFFFFFF, 0, 0, 0, 0⟩) ] ++
  [ (0x44, ⟨"GLB_BOOT_TIME", false, 0, 0xFFFFF, 0, 0, 0, 0⟩),
    (0x48, ⟨"GLB_RESET", false, 0, 0, 0, 0, 0xF, 0⟩),
    (0x4C, ⟨"GLB_DIE_STATE", false, 0, 0x7FF, 0, 0, 0, 0⟩),
    (0x50, ⟨"GLB_DIE_DROP", false, 0xFFFFFFFF, 0, 0, 0, 0, 0⟩) ]

/-- The fabric registers of one die (R318). -/
def fabRegs : List (Nat × RegInfo) :=
  [ (0x0, ⟨"GLB_FAB_STATUS", false, 0, 0, 0xF, 0, 0, 0⟩),
    (0x8, ⟨"GLB_FAB_WAIT_MAX", true, 0, 0, 0, 0xFFFFFFFFFFFFFFFF, 0, 0⟩),
    (0x10, ⟨"GLB_FAB_AGED_COUNT", true, 0xFFFFFFFFFFFFFFFF, 0, 0, 0, 0, 0⟩),
    (0x18, ⟨"GLB_FAB_CREDIT_STALL", true, 0xFFFFFFFFFFFFFFFF, 0, 0, 0, 0, 0⟩),
    (0x20, ⟨"GLB_FAB_RETRY", false, 0xFFFFFFFF, 0, 0, 0, 0, 0⟩),
    (0x24, ⟨"GLB_FAB_ERR_COUNT", false, 0xFFFFFFFF, 0, 0, 0, 0, 0⟩) ]

/-- The `PWR_` block (R46). -/
def pwrRegs : List (Nat × RegInfo) :=
  [ (0x0, ⟨"PWR_PROFILE", false, 0x3, 0, 0, 0, 0, 0⟩),
    (0x4, ⟨"PWR_CAP", false, 0x7FF, 0, 0, 0, 0, 0x3E8⟩),
    (0x8, ⟨"PWR_INPUT", false, 0, 0x3FF07FF, 0, 0, 0, 0⟩),
    (0xC, ⟨"PWR_LEVEL", false, 0, 0xFFFFFF, 0, 0, 0, 0⟩),
    (0x10, ⟨"PWR_STATUS", false, 0, 0x1, 0xE, 0, 0, 0⟩),
    (0x14, ⟨"PWR_TEMP", false, 0, 0xFFFFFFFF, 0, 0, 0, 0⟩),
    (0x18, ⟨"PWR_CUT_COUNT", false, 0xFFFFFFFF, 0, 0, 0, 0, 0⟩),
    (0x1C, ⟨"PWR_INT_EN", false, 0x7, 0, 0, 0, 0, 0x6⟩) ]

/-- The `CLK_` block (R47). -/
def clkRegs : List (Nat × RegInfo) :=
  [ (0x0, ⟨"CLK_LOCK", false, 0, 0x1FFFFFF, 0, 0, 0, 0⟩),
    (0x4, ⟨"CLK_LOSS", false, 0, 0, 0x1FFFFFF, 0, 0, 0⟩) ]

/-- The registers of one seam (R48). -/
def seamRegs : List (Nat × RegInfo) :=
  [ (0x0, ⟨"SEAM_STATUS", false, 0, 0x3FFFF, 0, 0, 0, 0⟩),
    (0x4, ⟨"SEAM_ROLES", false, 0, 0xFFFFFF, 0, 0, 0, 0⟩),
    (0x8, ⟨"SEAM_REPLAY_COUNT", false, 0xFFFFFFFF, 0, 0, 0, 0, 0⟩) ]

/-- The registers of one streaming mover (R271). -/
def moverRegs : List (Nat × RegInfo) :=
  [ (0x0, ⟨"DMA_MV_STATUS", false, 0, 0x3FD, 0x2, 0, 0, 0⟩),
    (0x8, ⟨"DMA_MV_FAIL", true, 0, 0x3FFFFFFFFFFFFF, 0, 0, 0, 0⟩),
    (0x10, ⟨"DMA_MV_CTRL", false, 0, 0, 0, 0, 0x1, 0⟩),
    (0x18, ⟨"DMA_MV_BYTES", true, 0xFFFFFFFFFFFFFFFF, 0, 0, 0, 0, 0⟩) ]

/-- The registers of one channel (R270). -/
def chanRegs : List (Nat × RegInfo) :=
  [ (0x0, ⟨"DMA_CH_RING_BASE", true, 0xFFFFFFFFFFFC0, 0, 0, 0, 0, 0⟩),
    (0x8, ⟨"DMA_CH_RING_CFG", false, 0x3F, 0, 0, 0, 0, 0x1⟩),
    (0xC, ⟨"DMA_CH_PROD", false, 0xFFFF, 0, 0, 0, 0, 0⟩),
    (0x10, ⟨"DMA_CH_CONS", false, 0, 0xFFFF, 0, 0, 0, 0⟩),
    (0x14, ⟨"DMA_CH_CTRL", false, 0x1, 0, 0, 0, 0x6, 0⟩),
    (0x18, ⟨"DMA_CH_STATUS", false, 0, 0x1FFF, 0, 0, 0, 0⟩),
    (0x20, ⟨"DMA_CH_FAIL_ADDR", true, 0, 0x3FFFFFFFFFFFFF, 0, 0, 0, 0⟩),
    (0x28, ⟨"DMA_CH_DONE", true, 0xFFFFFFFFFFFFFFFF, 0, 0, 0, 0, 0⟩) ] ++
  [ (0x30, ⟨"DMA_CH_IGNORED", false, 0xFFFFFFFF, 0, 0, 0, 0, 0⟩),
    (0x34, ⟨"DMA_CH_IDX_WRAP", false, 0xFFFFFFFF, 0, 0, 0, 0, 0⟩),
    (0x38, ⟨"DMA_CH_IGNREC", false, 0, 0x1FFFFFF, 0, 0, 0, 0⟩) ]

/-- The registers of one near-memory stack (R294). -/
def stackRegs : List (Nat × RegInfo) :=
  [ (0x0, ⟨"MEM_STACK_STATUS", false, 0, 0x9FFFF, 0x60000, 0, 0, 0⟩),
    (0x4, ⟨"MEM_CE_COUNT", false, 0xFFFFFFFF, 0, 0, 0, 0, 0⟩),
    (0x8, ⟨"MEM_UE_COUNT", false, 0xFFFFFFFF, 0, 0, 0, 0, 0⟩),
    (0xC, ⟨"MEM_CE_THRESH", false, 0xFFFFFFFF, 0, 0, 0, 0, 0x100⟩),
    (0x10, ⟨"MEM_UE_ADDR", true, 0, 0x3FFFFFFFFFFFE0, 0, 0, 0, 0⟩),
    (0x18, ⟨"MEM_SCRUB_CFG", false, 0xFF, 0, 0, 0, 0, 0x18⟩),
    (0x20, ⟨"MEM_ADDS", true, 0xFFFFFFFFFFFFFFFF, 0, 0, 0, 0, 0⟩) ]

/-- The registers of one bandwidth regulator (R295). -/
def memRegRegs : List (Nat × RegInfo) :=
  [ (0x0, ⟨"MEM_REG_CFG", false, 0x3FFFFFF, 0, 0, 0, 0, 0⟩),
    (0x8, ⟨"MEM_REG_BYTES", true, 0xFFFFFFFFFFFFFFFF, 0, 0, 0, 0, 0⟩),
    (0x10, ⟨"MEM_REG_DEFER", true, 0xFFFFFFFFFFFFFFFF, 0, 0, 0, 0, 0⟩) ]

/-- The registers of one CXL port (R297). -/
def cxlRegs : List (Nat × RegInfo) :=
  [ (0x0, ⟨"CXL_PORT_STATUS", false, 0, 0xFFF, 0x1000, 0, 0, 0⟩),
    (0x8, ⟨"CXL_PORT_CAP", true, 0, 0x7FFFFFFFFFF, 0, 0, 0, 0⟩),
    (0x10, ⟨"CXL_TIMEOUT", false, 0xFFFF, 0, 0, 0, 0, 0x32⟩),
    (0x14, ⟨"CXL_UE_COUNT", false, 0xFFFFFFFF, 0, 0, 0, 0, 0⟩),
    (0x18, ⟨"CXL_TIMEOUT_COUNT", false, 0xFFFFFFFF, 0, 0, 0, 0, 0⟩),
    (0x20, ⟨"CXL_UE_ADDR", true, 0, 0xFFFFFFFFFFFC0, 0, 0, 0, 0⟩),
    (0x28, ⟨"CXL_BYTES_RD", true, 0xFFFFFFFFFFFFFFFF, 0, 0, 0, 0, 0⟩),
    (0x30, ⟨"CXL_BYTES_WR", true, 0xFFFFFFFFFFFFFFFF, 0, 0, 0, 0, 0⟩) ]

/-- The `NET_` registers of the module (R339). -/
def netRegs : List (Nat × RegInfo) :=
  [ (0x0, ⟨"NET_ETHERTYPE", false, 0, 0xFFFF, 0, 0, 0, 0⟩),
    (0x4, ⟨"NET_TIMERS", false, 0xFFFFFFF, 0, 0, 0, 0, 0xA7040⟩),
    (0x8, ⟨"NET_ETH_CFG", false, 0, 0x3FF, 0, 0, 0, 0⟩) ]

/-- The `NET_` registers of one network die (R339). -/
def netDieRegs : List (Nat × RegInfo) :=
  [ (0x0, ⟨"NET_FLOW_REJECT", false, 0xFFFFFFFF, 0, 0, 0, 0, 0⟩),
    (0x4, ⟨"NET_FLOW_WRITE_IGN", false, 0xFFFFFFFF, 0, 0, 0, 0, 0⟩),
    (0x8, ⟨"NET_RNR_COUNT", false, 0xFFFFFFFF, 0, 0, 0, 0, 0⟩),
    (0x10, ⟨"NET_RSTORE_USED", false, 0, 0x3FFFFFF, 0, 0, 0, 0⟩) ]

/-- The registers of one optical port (R339). -/
def netPortRegs : List (Nat × RegInfo) :=
  [ (0x0, ⟨"NET_PORT_CFG", false, 0, 0x7, 0, 0, 0, 0⟩),
    (0x4, ⟨"NET_PORT_STATUS", false, 0, 0x3F, 0x40, 0, 0, 0⟩),
    (0x8, ⟨"NET_PORT_MAC", true, 0, 0xFFFFFFFFFFFF, 0, 0, 0, 0⟩),
    (0x10, ⟨"NET_PORT_TX_FRAMES", true, 0xFFFFFFFFFFFFFFFF, 0, 0, 0, 0, 0⟩),
    (0x18, ⟨"NET_PORT_RX_FRAMES", true, 0xFFFFFFFFFFFFFFFF, 0, 0, 0, 0, 0⟩),
    (0x20, ⟨"NET_PORT_CRC_ERR", false, 0xFFFFFFFF, 0, 0, 0, 0, 0⟩),
    (0x24, ⟨"NET_PORT_RX_FORMAT", false, 0xFFFFFFFF, 0, 0, 0, 0, 0⟩),
    (0x28, ⟨"NET_PORT_TRANSIT_DROP", false, 0xFFFFFFFF, 0, 0, 0, 0, 0⟩) ]

/-- The registers of one collective engine (R370). -/
def colRegs : List (Nat × RegInfo) :=
  [ (0x0, ⟨"COL_STATUS", false, 0, 0xFFFFF, 0x300000, 0, 0, 0x80000⟩),
    (0x8, ⟨"COL_BLOCKS", true, 0xFFFFFFFFFFFFFFFF, 0, 0, 0, 0, 0⟩),
    (0x10, ⟨"COL_UPDATES", true, 0xFFFFFFFFFFFFFFFF, 0, 0, 0, 0, 0⟩),
    (0x18, ⟨"COL_OVF_COUNT", false, 0xFFFFFFFF, 0, 0, 0, 0, 0⟩),
    (0x1C, ⟨"COL_CSUM_RETRY", false, 0xFFFFFFFF, 0, 0, 0, 0, 0⟩),
    (0x20, ⟨"COL_FALLBACK", false, 0xFFFFFFFF, 0, 0, 0, 0, 0⟩),
    (0x24, ⟨"COL_NAN_BLOCK", false, 0xFFFFFFFF, 0, 0, 0, 0, 0⟩),
    (0x28, ⟨"COL_CONV_SAT", false, 0xFFFFFFFF, 0, 0, 0, 0, 0⟩) ] ++
  [ (0x2C, ⟨"COL_STALE", false, 0xFFFFFFFF, 0, 0, 0, 0, 0⟩) ]

/-- The `TST_` block (R475). -/
def tstRegs : List (Nat × RegInfo) :=
  [ (0x0, ⟨"TST_VSTEP_CD0", false, 0, 0xFFFF, 0, 0, 0, 0⟩),
    (0x4, ⟨"TST_VSTEP_CD1", false, 0, 0xFFFF, 0, 0, 0, 0⟩),
    (0x10, ⟨"TST_CHAIN", false, 0, 0x1FF, 0, 0, 0, 0⟩),
    (0x14, ⟨"TST_RUNS", false, 0xFFFFFFFF, 0, 0, 0, 0, 0⟩),
    (0x18, ⟨"TST_FAILS", false, 0xFFFFFFFF, 0, 0, 0, 0, 0⟩),
    (0x20, ⟨"TST_RETIRED0", false, 0, 0xFFFFFFFF, 0, 0, 0, 0⟩),
    (0x24, ⟨"TST_RETIRED1", false, 0, 0xFFFFFFFF, 0, 0, 0, 0⟩),
    (0x28, ⟨"TST_RETIRED2", false, 0, 0xFFFFFFFF, 0, 0, 0, 0⟩) ] ++
  [ (0x2C, ⟨"TST_RETIRED3", false, 0, 0xFFFFFFFF, 0, 0, 0, 0⟩) ]

/-- The registers of one queue (R407). -/
def queueRegs : List (Nat × RegInfo) :=
  [ (0x0, ⟨"TQ_CFG", false, 0x1FFFFFFF, 0, 0, 0, 0, 0x4000⟩),
    (0x4, ⟨"TQ_PASID", false, 0xFFFFF, 0, 0, 0, 0, 0⟩),
    (0x8, ⟨"TQ_BASE", true, 0xFFFFFFFFFFFFFFC0, 0, 0, 0, 0, 0⟩),
    (0x10, ⟨"TQ_TAIL", false, 0xFFFF, 0, 0, 0, 0, 0⟩),
    (0x14, ⟨"TQ_HEAD", false, 0, 0xFFFF, 0, 0, 0, 0⟩),
    (0x18, ⟨"TQ_DONE_SEQ", true, 0, 0xFFFFFFFFFFFFFFFF, 0, 0, 0, 0⟩),
    (0x20, ⟨"TQ_STATUS", false, 0, 0x103, 0xFC, 0, 0, 0⟩),
    (0x28, ⟨"TQ_FAULT", true, 0, 0xFFFFFFFFFFFFFFFF, 0, 0, 0, 0⟩) ] ++
  [ (0x30, ⟨"TQ_FAULT_COUNT", false, 0xFFFFFFFF, 0, 0, 0, 0, 0⟩),
    (0x34, ⟨"TQ_IGNORED", false, 0xFFFFFFFF, 0, 0, 0, 0, 0⟩),
    (0x38, ⟨"TQ_IGNREC", true, 0, 0xFFFFFFFFFFFFFFFF, 0, 0, 0, 0⟩),
    (0x40, ⟨"TQ_WAIT_LIMIT", false, 0xFFFFFF, 0, 0, 0, 0, 0⟩),
    (0x48, ⟨"TQ_WAITREC", true, 0, 0xFFFFFFFFFFFFFFFF, 0, 0, 0, 0⟩),
    (0x50, ⟨"TQ_WAITREC_VAL", true, 0, 0xFFFFFFFFFFFFFFFF, 0, 0, 0, 0⟩) ]

/-- The registers of one sync counter (R408). -/
def ctrRegs : List (Nat × RegInfo) :=
  [ (0x0, ⟨"TQ_CTR_VALUE", true, 0xFFFFFFFFFFFFFFFF, 0, 0, 0, 0, 0⟩),
    (0x8, ⟨"TQ_CTR_ADD", true, 0, 0, 0, 0, 0xFFFFFFFFFFFFFFFF, 0⟩) ]

/-- The administration registers (R409). -/
def adminRegs : List (Nat × RegInfo) :=
  [ (0x0, ⟨"TQ_ADMIN", false, 0, 0, 0, 0, 0x3FFF, 0⟩),
    (0x4, ⟨"TQ_ADMIN_STATUS", false, 0, 0x1FFF, 0, 0, 0, 0⟩),
    (0x8, ⟨"TQ_BAR2_BASE", true, 0xFFFFFFFFFFFFF, 0, 0, 0, 0, 0⟩) ]

/-- The registers of one tile outside its units and channels (R162, R192, R240, R269, R465). -/
def tileRegs : List (Nat × RegInfo) :=
  [ (0x0, ⟨"TILE_PROC_STATUS", false, 0, 0x7, 0x38, 0, 0, 0⟩),
    (0x4, ⟨"TILE_PROC_PC", false, 0, 0x3FF, 0, 0, 0, 0⟩),
    (0x8, ⟨"TILE_TASK_FAULT", false, 0, 0x7FFFFF, 0, 0, 0, 0⟩),
    (0xC, ⟨"TILE_PROC_IGNREC", false, 0, 0x1FFFFF, 0, 0, 0, 0⟩),
    (0x10, ⟨"TILE_PROC_IGNORED", false, 0xFFFFFFFF, 0, 0, 0, 0, 0⟩),
    (0x14, ⟨"TILE_IMEM_REJECT", false, 0xFFFFFFFF, 0, 0, 0, 0, 0⟩),
    (0x18, ⟨"TILE_IMEM_CE", false, 0xFFFFFFFF, 0, 0, 0, 0, 0⟩),
    (0x20, ⟨"TILE_QDEPTH", true, 0, 0x3FFFFFFFFFFF, 0, 0, 0, 0⟩) ] ++
  [ (0x28, ⟨"TILE_PIN0", false, 0, 0x801FFFFF, 0, 0, 0, 0⟩),
    (0x2C, ⟨"TILE_PIN1", false, 0, 0x801FFFFF, 0, 0, 0, 0⟩),
    (0x40, ⟨"TILE_PROC_BUNDLES", true, 0xFFFFFFFFFFFFFFFF, 0, 0, 0, 0, 0⟩),
    (0x48, ⟨"TILE_PROC_STALL_QFULL", true, 0xFFFFFFFFFFFFFFFF, 0, 0, 0, 0, 0⟩),
    (0x50, ⟨"TILE_PROC_STALL_EVENT", true, 0xFFFFFFFFFFFFFFFF, 0, 0, 0, 0, 0⟩),
    (0x58, ⟨"TILE_PROC_STALL_MODE", true, 0xFFFFFFFFFFFFFFFF, 0, 0, 0, 0, 0⟩),
    (0x60, ⟨"TILE_QHEAD_EVWAIT", true, 0xFFFFFFFFFFFFFFFF, 0, 0, 0, 0, 0⟩),
    (0x68, ⟨"TILE_PROC_STALL_SCALAR", true, 0xFFFFFFFFFFFFFFFF, 0, 0, 0, 0, 0⟩) ] ++
  [ (0x1000, ⟨"TILE_VU_STATUS", false, 0, 0x3FD, 0x2, 0, 0, 0⟩),
    (0x1004, ⟨"TILE_VU_STENCIL", false, 0, 0xFFFF, 0, 0, 0, 0⟩),
    (0x1008, ⟨"TILE_VU_CHUNKS", true, 0xFFFFFFFFFFFFFFFF, 0, 0, 0, 0, 0⟩),
    (0x1010, ⟨"TILE_VU_STALL", true, 0xFFFFFFFFFFFFFFFF, 0, 0, 0, 0, 0⟩),
    (0x1018, ⟨"TILE_VU_CONV_SAT", false, 0xFFFFFFFF, 0, 0, 0, 0, 0⟩),
    (0x101C, ⟨"TILE_VU_NAN_BLOCK", false, 0xFFFFFFFF, 0, 0, 0, 0, 0⟩),
    (0x1020, ⟨"TILE_VU_FORMAT", false, 0xFFFFFFFF, 0, 0, 0, 0, 0⟩),
    (0x1024, ⟨"TILE_VU_TLOAD_REJECT", false, 0xFFFFFFFF, 0, 0, 0, 0, 0⟩) ] ++
  [ (0x1028, ⟨"TILE_VU_CHK", false, 0xFFFFFFFF, 0, 0, 0, 0, 0⟩),
    (0x2000, ⟨"TILE_SP_STATUS", false, 0, 0x2, 0x1, 0, 0, 0⟩),
    (0x2004, ⟨"TILE_SP_CE", false, 0xFFFFFFFF, 0, 0, 0, 0, 0⟩),
    (0x2008, ⟨"TILE_SP_UE", false, 0xFFFFFFFF, 0, 0, 0, 0, 0⟩),
    (0x200C, ⟨"TILE_SP_UE_ADDR", false, 0, 0xFFFFFF, 0, 0, 0, 0⟩),
    (0x2010, ⟨"TILE_SP_ARB_LOSS", true, 0xFFFFFFFFFFFFFFFF, 0, 0, 0, 0, 0⟩),
    (0x2018, ⟨"TILE_SP_ADDS", true, 0xFFFFFFFFFFFFFFFF, 0, 0, 0, 0, 0⟩),
    (0x4000, ⟨"TILE_SUS_STATUS", false, 0, 0xF, 0x10, 0, 0, 0⟩) ] ++
  [ (0x4004, ⟨"TILE_SUS_COUNT", false, 0xFFFFFFFF, 0, 0, 0, 0, 0⟩),
    (0x4008, ⟨"TILE_SUS_THRESH", false, 0xFFFFFF, 0, 0, 0, 0, 0x80402⟩),
    (0x400C, ⟨"TILE_SUS_CTRL", false, 0, 0, 0, 0, 0x1, 0⟩),
    (0x4010, ⟨"TILE_CHK_ROW", false, 0xFFFFFFFF, 0, 0, 0, 0, 0⟩),
    (0x4014, ⟨"TILE_CHK_PARITY", false, 0xFFFFFFFF, 0, 0, 0, 0, 0⟩),
    (0x4018, ⟨"TILE_CHK_PLACE", false, 0xFFFFFFFF, 0, 0, 0, 0, 0⟩),
    (0x401C, ⟨"TILE_CHK_WIN", false, 0xFFFFFFFF, 0, 0, 0, 0, 0⟩),
    (0x4020, ⟨"TILE_CHK_DRAIN", false, 0xFFFFFFFF, 0, 0, 0, 0, 0⟩) ] ++
  [ (0x4024, ⟨"TILE_CHK_LAST", false, 0, 0xFFF, 0, 0, 0, 0⟩),
    (0x8300, ⟨"TILE_BWD_MODE", false, 0x1, 0x6, 0, 0, 0, 0⟩),
    (0x8308, ⟨"TILE_BWD_ZWAIT", true, 0xFFFFFFFFFFFFFFFF, 0, 0, 0, 0, 0⟩) ]

/-- The registers of one matrix unit (R142). -/
def unitRegs : List (Nat × RegInfo) :=
  [ (0x0, ⟨"TILE_MU_STATUS", false, 0, 0x7FB, 0x4, 0, 0, 0⟩),
    (0x8, ⟨"TILE_MU_SWEEPS", true, 0xFFFFFFFFFFFFFFFF, 0, 0, 0, 0, 0⟩),
    (0x10, ⟨"TILE_MU_SLOTS", true, 0xFFFFFFFFFFFFFFFF, 0, 0, 0, 0, 0⟩),
    (0x18, ⟨"TILE_MU_BUBBLE_STREAM", true, 0xFFFFFFFFFFFFFFFF, 0, 0, 0, 0, 0⟩),
    (0x20, ⟨"TILE_MU_BUBBLE_STAT", true, 0xFFFFFFFFFFFFFFFF, 0, 0, 0, 0, 0⟩),
    (0x28, ⟨"TILE_MU_BUBBLE_WINDOW", true, 0xFFFFFFFFFFFFFFFF, 0, 0, 0, 0, 0⟩),
    (0x30, ⟨"TILE_MU_BUBBLE_THROTTLE", true, 0xFFFFFFFFFFFFFFFF, 0, 0, 0, 0, 0⟩),
    (0x38, ⟨"TILE_MU_INTERLOCK_WAIT", true, 0xFFFFFFFFFFFFFFFF, 0, 0, 0, 0, 0⟩) ] ++
  [ (0x40, ⟨"TILE_MU_CONV_SAT", false, 0xFFFFFFFF, 0, 0, 0, 0, 0⟩),
    (0x44, ⟨"TILE_MU_NAN_BLOCK", false, 0xFFFFFFFF, 0, 0, 0, 0, 0⟩),
    (0x48, ⟨"TILE_MU_FORMAT", false, 0xFFFFFFFF, 0, 0, 0, 0, 0⟩) ]

/-- A local event counter (R192). -/
def evInfo : RegInfo := ⟨"TILE_EV", false, 0xFFFFFFFF, 0, 0, 0, 0, 0⟩
/-- `TQ_GENG_STATUS` (R409): 131,072 free node slots and 262,144 free pending counts. -/
def gengInfo : RegInfo := ⟨"TQ_GENG_STATUS", true, 0, 0x3FFFFFFFFFFF, 0, 0, 0, 0x20000 + 0x40000 * 2 ^ 18⟩
/-- `TQ_INT_ROUTE` (R409). -/
def routeInfo : RegInfo := ⟨"TQ_INT_ROUTE", false, 0x9FFF, 0, 0, 0, 0, 0x8000⟩
/-- `TQ_GRAPH` (R409). -/
def graphInfo : RegInfo := ⟨"TQ_GRAPH", true, 0, 0xFFFFFFFFFFFFFFFF, 0, 0, 0, 0⟩
/-- `MEM_PART_MAP` words 0 to 19, and word 20 with the bits of requesters 160 to 165 (R296). -/
def partMapInfo (last : Bool) : RegInfo :=
  ⟨"MEM_PART_MAP", false, if last then 0xFFFFFF else 0xFFFFFFFF, 0, 0, 0, 0, 0⟩
/-- Half of an MSI-X table entry or of the Pending Bit Array (R406). -/
def msixInfo : RegInfo := ⟨"MSIX_TABLE", true, 0xFFFFFFFFFFFFFFFF, 0, 0, 0, 0, 0⟩
/-- The Pending Bit Array (R406). -/
def pbaInfo : RegInfo := ⟨"MSIX_PBA", true, 0, 0xFFFFFFFFFFFFFFFF, 0, 0, 0, 0⟩
/-- One word of a flow context (R327): the RW bits and the RO bits. [log 64: DESIGN CHOICE] -/
def flowInfo (word : Nat) : RegInfo :=
  match word with
  | 0 => ⟨"FLOW_WORD0", true, 0x7FFFFFFFFF, 0, 0, 0, 0, 0⟩
  | 1 => ⟨"FLOW_WORD1", true, 0xFFFFFFFFFFFFFFFF, 0, 0, 0, 0, 0⟩
  | 2 => ⟨"FLOW_WORD2", true, 0x3FFFFFFFFFFFFFF, 0, 0, 0, 0, 0⟩
  | 3 => ⟨"FLOW_WORD3", true, 0xFFFFFFFFFFFFFF, 0, 0, 0, 0, 0⟩
  | 4 => ⟨"FLOW_WORD4", true, 0xFFFF, 0xFFFF0000, 0, 0, 0, 0⟩
  | 5 => ⟨"FLOW_WORD5", true, 0xFFFFFFFF, 0x1FF00000000, 0, 0, 0, 0⟩
  | 6 => ⟨"FLOW_WORD6", true, 0xFFFFFFFF, 0xFF00000000, 0, 0, 0, 0⟩
  | _ => ⟨"FLOW_WORD7", true, 0, 0xFFFFFFFF, 0, 0, 0, 0⟩

/-- A register of a block by its offset within the block. -/
def lookupReg : List (Nat × RegInfo) → Nat → Option RegInfo
  | [], _ => none
  | (o, r) :: rest, k => if o = k then some r else lookupReg rest k

/-- A register of a tile's block (R191). -/
def tileInfo (o : Nat) : Option RegInfo :=
  if 0x100 ≤ o ∧ o < 0x140 then (if o % 4 = 0 then some evInfo else none)
  else if 0x2100 ≤ o ∧ o < 0x2300 then lookupReg chanRegs ((o - 0x2100) % 0x80)
  else if 0x8000 ≤ o ∧ o < 0x8300 then lookupReg unitRegs ((o - 0x8000) % 0x100)
  else lookupReg tileRegs o

/-- A register of a mover's block (R271). -/
def moverInfo (o : Nat) : Option RegInfo :=
  if o < 0x100 then lookupReg moverRegs o
  else if o < 0x500 then lookupReg chanRegs ((o - 0x100) % 0x80)
  else none

/-- A register of the `MEM_` block (R294 to R296). -/
def memInfo (o : Nat) : Option RegInfo :=
  if o < 0x2000 then lookupReg stackRegs (o % 0x400)
  else if o < 0x2400 then lookupReg memRegRegs ((o - 0x2000) % 0x20)
  else if 0x4000 ≤ o ∧ o < 0x4054 then (if o % 4 = 0 then some (partMapInfo (o == 0x4050)) else none)
  else none

/-- A register of the `NET_` block (R339). -/
def netInfo (o : Nat) : Option RegInfo :=
  if o < 0x100 then lookupReg netRegs o
  else if o < 0x180 then lookupReg netDieRegs ((o - 0x100) % 0x40)
  else if 0x1000 ≤ o ∧ o < 0x1800 then lookupReg netPortRegs ((o - 0x1000) % 0x40)
  else none

/-- A register of the host interface beyond the queues and counters (R409). -/
def adminInfo (o : Nat) : Option RegInfo :=
  if o = 0x100 ∨ o = 0x120 then some gengInfo
  else if o < 0x1000 then lookupReg adminRegs o
  else if o < 0x2000 then (if o % 4 = 0 then some routeInfo else none)
  else if 0x10000 ≤ o ∧ o < 0x20000 then (if o % 16 = 0 then some graphInfo else none)
  else if 0x20000 ≤ o ∧ o < 0x20400 then (if o % 8 = 0 then some msixInfo else none)
  else if o = 0x21000 then some pbaInfo
  else none

/-- The register that starts at an offset of register space, if one does (R45 to R48, R191, R270, R271, R294 to R297,
R318, R327, R339, R370, R406, R475). Mailboxes and instruction memory are no registers of this map. -/
def regInfo (o : Nat) : Option RegInfo :=
  if 0x3000000 ≤ o then
    if o < 0x4000000 ∧ o % 8 = 0 then some (flowInfo (o % 64 / 8)) else none
  else if 0x2000000 ≤ o then none
  else if 0x1800000 ≤ o then none
  else if 0x1000000 ≤ o then tileInfo (o % 0x10000)
  else if 0x630000 ≤ o then none
  else if 0x600000 ≤ o then adminInfo (o - 0x600000)
  else if 0x500000 ≤ o then lookupReg ctrRegs (o % 16)
  else if 0x400000 ≤ o then lookupReg queueRegs (o % 0x100)
  else if 0xB0000 ≤ o then none
  else if 0xA0000 ≤ o then lookupReg tstRegs (o - 0xA0000)
  else if 0x90000 ≤ o then none
  else if 0x80000 ≤ o then (if o < 0x80200 then lookupReg colRegs (o % 0x100) else none)
  else if 0x70000 ≤ o then netInfo (o - 0x70000)
  else if 0x60000 ≤ o then (if o < 0x61000 then lookupReg cxlRegs (o % 0x400) else none)
  else if 0x50000 ≤ o then memInfo (o - 0x50000)
  else if 0x40000 ≤ o then moverInfo (o % 0x800)
  else if 0x30000 ≤ o then (if o < 0x30040 then lookupReg seamRegs (o % 0x10) else none)
  else if 0x20000 ≤ o then lookupReg clkRegs (o - 0x20000)
  else if 0x10000 ≤ o then lookupReg pwrRegs (o - 0x10000)
  else if 0x1000 ≤ o then (if o < 0x1400 then lookupReg fabRegs (o % 0x100) else none)
  else lookupReg glbRegs o

/-- What a register that nothing has written holds: its reset value. STEP of `GLB_ID` is fused (R45): a free value. -/
def regReset (o : Nat) : Word :=
  if o = 0 then 0xE8E80000 ||| (Config.step.setWidth 64 <<< 8)
  else match regInfo (o % 0x10000000) with
    | some r => BitVec.ofNat 64 r.reset
    | none => 0

/-! ### Where the registers lie -/

/-- Tile t's register block (R191). -/
def tileBase (t : Nat) : Nat := 0x1000000 + t * 0x10000
/-- Register `o` of matrix unit `u` (0 F, 1 B0, 2 B1) of a tile (R142). -/
def unitReg (t u o : Nat) : Nat := tileBase t + 0x8000 + u * 0x100 + o
/-- Register `o` of a channel in the numbering of R396 (R270, R271). -/
def chanReg (ch o : Nat) : Nat :=
  if ch < 512 then tileBase (ch / 4) + 0x2100 + ch % 4 * 0x80 + o
  else 0x40000 + (ch - 512) / 8 * 0x800 + 0x100 + ch % 8 * 0x80 + o
/-- Register `o` of mover m (R271). -/
def moverReg (m o : Nat) : Nat := 0x40000 + m * 0x800 + o
/-- Register `o` of stack s (R294). -/
def stackReg (s o : Nat) : Nat := 0x50000 + s * 0x400 + o
/-- Register `o` of the regulator of partition p on compute die x (R295). -/
def memReg (x p o : Nat) : Nat := 0x52000 + x * 0x200 + p * 0x20 + o
/-- Register `o` of CXL port p (R297). -/
def cxlReg (p o : Nat) : Nat := 0x60000 + p * 0x400 + o
/-- Register `o` of the fabric of die d (R318). -/
def fabReg (d o : Nat) : Nat := 0x1000 + d * 0x100 + o
/-- Register `o` of seam s (R48). -/
def seamReg (s o : Nat) : Nat := 0x30000 + s * 0x10 + o
/-- Register `o` of network die d (R339). -/
def netDieReg (d o : Nat) : Nat := 0x70100 + d * 0x40 + o
/-- Register `o` of optical port p (R339). -/
def netPortReg (p o : Nat) : Nat := 0x71000 + p * 0x40 + o
/-- Register `o` of the collective engine of network die d (R370). -/
def colReg (d o : Nat) : Nat := 0x80000 + d * 0x100 + o
/-- Register `o` of queue q (R406). -/
def queueReg (q o : Nat) : Nat := 0x400000 + q * 0x100 + o
/-- `TQ_CTR_VALUE` of counter i (R406). -/
def ctrReg (i : Nat) : Nat := 0x500000 + i * 0x10
/-- Word w of flow context i (R327). -/
def flowReg (i w : Nat) : Nat := 0x3000000 + 64 * i + 8 * w
/-- `TQ_INT_ROUTE` of a source (R406). -/
def routeReg (n : Nat) : Nat := 0x601000 + 4 * n

end Sys2Proof.Machine
end

