-- ==== Sys2Proof/WellFormed.lean ====
section
/-! DEFINITION. Well-formed commands: what the links, controllers, hosts and training of the spec can bring in. A
command that is not well formed is one no interface of the module carries; its meaning answers the fault `illFormed`.
Operand ranges that are a plain bound stand in the types of Syntax.lean. -/
namespace Sys2Proof

/-- Bytes that lie inside one 64-byte line from an address on (R277): at least one. -/
def lineBytes (addr : Nat) (bs : List Byte) : Bool := !bs.isEmpty && decide (addr % 64 + bs.length ≤ 64)

/-- An access of a near-memory controller stays inside its line (R277). -/
def HbmAccess.wf (addr : Nat) : HbmAccess → Bool
  | .readLine | .readSector => true
  | .write bs => lineBytes addr bs

/-- Inputs of an arbiter of each kind: k of R306. -/
def ArbKind.inputs : ArbKind → Nat
  | .tileEgress => 5 | .islandUplink => 8
  | .moverUplink | .islandDownlink | .hbmController | .seamRole | .seam3 | .netCrossbar => 16

/-- The classes an arbiter of each kind serves (R306). -/
def ArbKind.classes : ArbKind → List FabClass
  | .tileEgress | .moverUplink => [.req]
  | .islandUplink => [.req, .rsp]
  | .hbmController => [.req, .sub]
  | .islandDownlink | .seamRole => [.req, .sub, .rsp]
  | .seam3 | .netCrossbar => [.req, .sub, .rsp, .col]

/-- The outputs that a die has of each kind (R17, R18, R23, R306): a tile's egress, an island's uplink and downlink, the
movers' uplink, a controller, role r of seam m as 3 × m + r, seam 3, and of a network die's crossbar 0 the optical
ports, 1 the host port, 2 and 3 the CXL ports, 4 the collective engine, 5 the registers. [log 23: DESIGN CHOICE] -/
def ArbKind.has (k : ArbKind) (d : Die) (idx : Nat) : Bool :=
  match k, d with
  | .tileEgress, .cd0 | .tileEgress, .cd1 => decide (idx < 64)
  | .islandUplink, .cd0 | .islandUplink, .cd1 | .islandDownlink, .cd0 | .islandDownlink, .cd1 => decide (idx < 8)
  | .moverUplink, .cd0 | .moverUplink, .cd1 => idx == 0
  | .hbmController, .cd0 | .hbmController, .cd1 => decide (idx < 4)
  | .seamRole, .cd0 => decide (idx < 2) || (decide (3 ≤ idx) && decide (idx < 6))
  | .seamRole, .cd1 => decide (idx < 2) || (decide (6 ≤ idx) && decide (idx < 9))
  | .seamRole, .nd0 => decide (3 ≤ idx) && decide (idx < 6)
  | .seamRole, .nd1 => decide (6 ≤ idx) && decide (idx < 9)
  | .seam3, .nd0 | .seam3, .nd1 => idx == 0
  | .netCrossbar, .nd0 | .netCrossbar, .nd1 => decide (idx < 6)
  | _, _ => false

/-- The index of an output: of a seam's roles that of seam `unit` and role `role`, of any other kind the unit itself. -/
def ArbKind.output (k : ArbKind) (unit : Nat) (role : Fin 3) : Nat :=
  if k = .seamRole then 3 * unit + role else unit

/-- Kinds of arbiter in the numbering of CREDIT_RETURN's links. -/
def ArbKind.ofNum : Nat → ArbKind
  | 0 => .tileEgress | 1 => .islandUplink | 2 => .moverUplink | 3 => .islandDownlink | 4 => .hbmController
  | 5 => .seamRole | 6 => .seam3 | _ => .netCrossbar

/-- A link that an output of a die feeds, in a class that the output serves. -/
def linkOk (die : Die) (link : Nat) (cls : FabClass) : Bool :=
  (ArbKind.ofNum (link % 8)).has die (link / 8) && (ArbKind.ofNum (link % 8)).classes.contains cls

/-- Bytes that a native link can bring in as one frame (R321): 1 to 66 whole cells. -/
def nativeLen (n : Nat) : Bool := n % 64 == 0 && decide (64 ≤ n) && decide (n ≤ 66 * 64)

/-- Bytes that an Ethernet link can bring in as one frame (R324): 64 to 4,166. -/
def etherLen (n : Nat) : Bool := decide (64 ≤ n) && decide (n ≤ 4166)

/-- What start-up meets is given for every stack, port and link (R274, R290, R291, R320), and no port trains other than
R290 and R297 say. -/
def StartInputs.wf (i : StartInputs) : Bool :=
  i.cxlLink.length == 4 && i.cxlTargets.length == 4 && i.optics.length == 32 &&
    i.cxlLink.all fun (e : Nat × Nat × Bool) => decide (e.2.1 ≤ 2) && (e.1 == 4 || e.1 == 8 || e.1 == 16 || e.2.1 == 0)

/-- A write that PCI Express carries in one request (R372): 1 to 512 bytes. -/
def writeLen (n : Nat) : Bool := decide (0 < n) && decide (n ≤ 512)

/-- The check of one command. [log 3: DESIGN CHOICE] -/
def Instr.wf : Instr → Bool
  | .hbmSectorAccess addr acc _ => acc.wf addr.val
  | .cxlCompletion _ _ _ bytes => bytes.length == 64
  | .arbiterGrant die kind unit role _ _ => kind.has die (kind.output unit role) && (kind == .seamRole || role == 0)
  | .creditReturn die link cls _ => linkOk die link cls
  | .nativeFrameReceive _ _ bytes => nativeLen bytes.length
  | .ethernetFrameReceive _ _ bytes => etherLen bytes.length
  | .imemHostWrite _ _ bytes => writeLen bytes.length
  | .bar2Read _ _ len => decide (0 < len) && decide (len ≤ 4096)
  | .bar2Write _ _ bytes _ => writeLen bytes.length
  | .coldStart inp => inp.wf
  | .fullReset inp => inp.wf
  | _ => true

end Sys2Proof
end

