-- ==== Sys2Proof/Machine/Ops.lean ====
section
/-! DEFINITION. The named operations over registers, memory, address map, counters, interrupts and commands that
every family uses. -/
namespace Sys2Proof.Machine

/-! ### Status codes (R13, R14) -/

/-- The code of a status (R13). -/
def Status.code : Status → Nat
  | .ok => 0 | .bounds => 1 | .priv => 2 | .format => 3 | .memUe => 4 | .bus => 5 | .aborted => 6 | .chk => 7
  | .sat => 8 | .inexact => 9 | .ovf => 10 | .csum => 11 | .dieLost => 12 | .waitStall => 13 | .destroyed => 14
  | .linkDown => 15
  | .other c => c

/-- The status of a code. -/
def Status.ofCode (c : Nat) : Status :=
  match c with
  | 0 => .ok | 1 => .bounds | 2 => .priv | 3 => .format | 4 => .memUe | 5 => .bus | 6 => .aborted | 7 => .chk
  | 8 => .sat | 9 => .inexact | 10 => .ovf | 11 => .csum | 12 => .dieLost | 13 => .waitStall | 14 => .destroyed
  | 15 => .linkDown | n => .other n

/-- Place in the order of R14. A code that R14 does not rank, which only the FAULT byte of a header that software has
written can bring in, stands behind the faults and before the results. [log 140: DEDUCED] -/
def Status.rank : Status → Nat
  | .dieLost => 0 | .memUe => 1 | .chk => 2 | .bus => 3 | .linkDown => 4 | .csum => 5 | .aborted => 6 | .bounds => 7
  | .ovf => 9 | .sat => 10 | .inexact => 11 | .ok => 12 | _ => 8

/-- Whether a status is of class fault (R13); a reserved code is taken as a fault of unknown cause (R15). -/
def Status.isFault : Status → Bool
  | .bounds | .memUe | .bus | .aborted | .chk | .csum | .dieLost | .linkDown | .other _ => true
  | _ => false

/-- The one of two statuses that stands first in R14. -/
def Status.merge (a b : Status) : Status := if b.rank < a.rank then b else a

/-! ### Registers -/

/-- What the register file holds at an offset. -/
def State.reg (s : State) (o : Nat) : Word := tget regReset s.regs o

/-- The state with one register-file entry written. -/
def State.setReg (s : State) (o : Nat) (v : Word) : State := { s with regs := tset regReset s.regs o v }

/-- The state with bits [hi:lo] of a register written. -/
def State.putReg (s : State) (o hi lo v : Nat) : State := s.setReg o (putField (s.reg o) hi lo v)

/-- The state with one bit of a register written. -/
def State.putBit (s : State) (o n : Nat) (b : Bool) : State := s.setReg o (putFlag (s.reg o) n b)

/-- A 32-bit event counter plus n, saturating at 0xFFFF_FFFF (R9). -/
def State.count (s : State) (o n : Nat) : State :=
  s.setReg o (BitVec.ofNat 64 (min ((s.reg o).toNat + n) 0xFFFFFFFF))

/-- A 64-bit event counter plus n, saturating at 0xFFFF_FFFF_FFFF_FFFF. -/
def State.count64 (s : State) (o n : Nat) : State :=
  s.setReg o (BitVec.ofNat 64 (min ((s.reg o).toNat + n) 0xFFFFFFFFFFFFFFFF))

/-- The registers from offset a on, n bytes of them, back at their reset values. -/
def State.resetRegs (s : State) (a n : Nat) : State := { s with regs := tclear s.regs a n }

/-- One draw of a free value: a value the spec leaves open, and the state that has used it up.
[log 14: DESIGN CHOICE] [log 129: DESIGN CHOICE] -/
def State.draw (s : State) : Word × State := (Config.freeValue s.free, { s with free := s.free + 1 })

/-- What leaves the module is recorded at the end of `out`. [log 128: DESIGN CHOICE] -/
def State.emit (s : State) (e : Emit) : State := { s with out := s.out ++ [e] }

/-! ### Memory -/

/-- What a byte of memory that nothing has written reads as. Scratchpads start as zeros (R245); for the other
memories the spec gives no contents and the model takes zeros (log 2). -/
def memDefault : Nat → Byte := fun _ => 0

/-- The canonical form of a memory: addresses strictly rising, no entry equal to what an unlisted address reads as. -/
def Memory.wf (m : Table Byte) : Bool := twf memDefault m

/-- The byte at a device address. -/
def State.byte (s : State) (a : Nat) : Byte := tget memDefault s.mem a

/-- n bytes from a device address on. -/
def State.bytes (s : State) (a n : Nat) : List Byte := (List.range n).map fun i => s.byte (a + i)

/-- A little-endian number of n bytes at a device address (R4). -/
def State.num (s : State) (a n : Nat) : Nat := leNat (s.bytes a n)

/-- A memory with bytes written from an address on. -/
def writeCells : List Byte → Nat → Table Byte → Table Byte
  | [], _, m => m
  | b :: r, a, m => writeCells r (a + 1) (tset memDefault m a b)

/-- The state with bytes written from a device address on. -/
def State.store (s : State) (a : Nat) (bs : List Byte) : State := { s with mem := writeCells bs a s.mem }

/-- The state with several runs of bytes written. -/
def State.storeAll (s : State) : List (Nat × List Byte) → State
  | [] => s
  | (a, bs) :: r => (s.store a bs).storeAll r

/-- Bytes of one error-correction word at a device address: a 16-byte scratchpad word (R245), a 64-byte far-tier line
(R292), a 64-byte instruction bundle (R183), a 32-byte near-memory sector (R279). -/
def eccSize (a : Nat) : Nat :=
  if a < 0x8000000000 then 32 else if a < 0xF00000000000 then 64 else if a < 0xF80000000000 then 16 else 64

/-- Whether an error-correction word that overlaps n bytes at address a holds an uncorrectable error. -/
def State.badData (s : State) (a n : Nat) : Bool :=
  s.ecc.any fun e => e.2 == .uncorrectable && decide (a < e.1 + eccSize e.1) && decide (e.1 < a + n)

/-- What the error-correcting code finds in the word at an address. -/
def State.eccAt (s : State) (a : Nat) : Ecc := tget (fun _ => Ecc.clean) s.ecc (a / eccSize a * eccSize a)

/-- The error-correction state of one word. -/
def State.setEcc (s : State) (a : Nat) (e : Ecc) : State :=
  { s with ecc := tset (fun _ => Ecc.clean) s.ecc (a / eccSize a * eccSize a) e }

/-- Words that n bytes at address a cover whole are written with fresh check bits. -/
def State.freshEcc (s : State) (a n : Nat) : State :=
  { s with ecc := s.ecc.filter fun e => !(decide (a ≤ e.1) && decide (e.1 + eccSize e.1 ≤ a + n)) }

/-- A store of an engine: the bytes, and fresh check bits for every word it covers whole. -/
def State.storeClean (s : State) (a : Nat) (bs : List Byte) : State := (s.store a bs).freshEcc a bs.length

/-! ### Modes, dies and the address map (R24 to R32) -/

/-- GLB_MODE.PARTITION. -/
def State.split (s : State) : Bool := flag (s.reg 0x8) 1

/-- GLB_MODE.INTERLEAVE: die-local. -/
def State.dieLocal (s : State) : Bool := flag (s.reg 0x8) 0

/-- The port through which a partition's host works: the owner of R30, or the partition's own port (R31). -/
def State.portOf (s : State) (part : Nat) : Nat :=
  if s.split then part else if flag (s.reg 0x8) 2 then 1 else 0

/-- The partition a port works in. -/
def State.portPart (s : State) (port : Nat) : Nat := if s.split then port else 0

/-- Whether a port has the resources of its partition (R30): either port in Split mode, the owner in Whole mode. -/
def State.ownsParts (s : State) (port : Nat) : Bool := s.split || port == s.portOf 0

/-- The number of a die in R318. -/
def dieNum : Die → Nat
  | .cd0 => 0 | .cd1 => 1 | .nd0 => 2 | .nd1 => 3

/-- GLB_DIE_STATE of die d (R451). -/
def State.dieState (s : State) (d : Nat) : Nat := field (s.reg 0x4C) (2 * d + 1) (2 * d)

/-- A die that was lost, by request or by its clock (R446). -/
def State.dieLost (s : State) (d : Nat) : Bool := s.dieState d == 1 || s.dieState d == 2

/-- The contained fault state (R450). -/
def State.contained (s : State) : Bool := flag (s.reg 0x4C) 8

/-- Seam s is up and not fenced (R48). -/
def State.seamUp (s : State) (i : Nat) : Bool := flag (s.reg (seamReg i 0)) 0 && !flag (s.reg (seamReg i 0)) 1

/-- The near-memory stack of an address (R27, R28). -/
def State.stackOf (s : State) (a : Nat) : Nat :=
  let g := a / 4096
  if s.dieLocal then 4 * bitsN a 38 38 + ((bitsN g 1 0 ^^^ bitsN g 9 8) ^^^ bitsN g 17 16)
  else (bitsN g 2 0 ^^^ bitsN g 10 8) ^^^ bitsN g 18 16

/-- The offset of an address within its stack (R27, R28). -/
def State.stackOffset (s : State) (a : Nat) : Nat :=
  if s.dieLocal then bitsN a 37 14 * 4096 + a % 4096 else bitsN a 38 15 * 4096 + a % 4096

/-- The regions of R25; `none_` is an address outside every region (R26). -/
inductive Region where
  | near (stack : Nat)
  | far (port : Nat)
  | scratch (tile : Nat)
  | regs (off : Nat)
  | remote (flow off : Nat)
  | outside
  deriving DecidableEq, Repr

/-- CXL_PORT_CAP.BYTES of a port (R291). -/
def State.farCap (s : State) (p : Nat) : Nat := field (s.reg (cxlReg p 8)) 42 0

/-- The region of a whole-module address (R25, R26). [log 61: DEDUCED] -/
def State.region (s : State) (a : Nat) : Region :=
  if a < 0x8000000000 then .near (s.stackOf a)
  else if 0x100000000000 ≤ a ∧ a < 0x200000000000 then
    let p := (a - 0x100000000000) / 0x40000000000
    if (a - 0x100000000000) % 0x40000000000 < s.farCap p then .far p else .outside
  else if 0xF00000000000 ≤ a ∧ a < 0xF00080000000 then
    if a % 0x1000000 < 0x600000 then .scratch ((a - 0xF00000000000) / 0x1000000) else .outside
  else if 0xF80000000000 ≤ a ∧ a < 0xF80004000000 then .regs (a - 0xF80000000000)
  else if 0x8000000000000 ≤ a ∧ a < 0x10000000000000 then .remote (bitsN a 50 33) (bitsN a 32 0)
  else .outside

/-- The whole-module address of a partition's address (R31); none where it lies beyond the partition (R26). -/
def State.physAddr (s : State) (part a : Nat) : Option Nat :=
  if !s.split then some a
  else if a < 0x8000000000 then
    if a < 0x4000000000 then some (a + part * 0x4000000000) else none
  else if 0x100000000000 ≤ a ∧ a < 0x200000000000 then
    if a < 0x180000000000 then some (a + part * 0x80000000000) else none
  else if 0xF00000000000 ≤ a ∧ a < 0xF00080000000 then
    if a < 0xF00040000000 then some (a + part * 0x40000000) else none
  else if 0x8000000000000 ≤ a ∧ a < 0x10000000000000 then
    if bitsN a 50 33 < 131072 then some (a + part * 131072 * 0x200000000) else none
  else some a

/-- Whether an extent's last byte stays in the unit its first byte lies in: near memory, one far window, one
scratchpad, register space or one flow's window (R11, R26). -/
def Region.sameUnit : Region → Region → Bool
  | .near _, .near _ => true
  | .far p, .far q => p == q
  | .scratch t, .scratch u => t == u
  | .regs _, .regs _ => true
  | .remote f _, .remote g _ => f == g
  | _, _ => false

/-- Whether an extent of n bytes (n > 0) from a whole-module address stays inside its target region (R11, R26), and in
Split mode inside its partition's near memory (R31). -/
def State.extentOk (s : State) (a n : Nat) : Bool :=
  n == 0 || (Region.sameUnit (s.region a) (s.region (a + n - 1)) &&
    (!s.split || decide (0x8000000000 ≤ a) || a / 0x4000000000 == (a + n - 1) / 0x4000000000))

/-- The die a region lies on, in the numbering of R318 (R17). -/
def Region.die : Region → Nat
  | .near st => st / 4
  | .far p => 2 + p / 2
  | .scratch t => t / 64
  | .remote f _ => 2 + f / 131072
  | _ => 2

/-- The seams of the fixed path between two dies (R24). -/
def pathSeams (a b : Nat) : List Nat :=
  match a, b with
  | 0, 1 => [0] | 1, 0 => [0]
  | 0, 2 => [1] | 2, 0 => [1]
  | 1, 3 => [2] | 3, 1 => [2]
  | 2, 3 => [3] | 3, 2 => [3]
  | 0, 3 => [1, 3] | 1, 2 => [2, 3]
  | 2, 1 => [3, 2] | 3, 0 => [3, 1]
  | _, _ => []

/-- A seam is fenced for a lost die. The data fence of Split mode is no loss (R32). -/
def State.seamLost (s : State) (i : Nat) : Bool := flag (s.reg (seamReg i 0)) 1 && !(s.split && (i == 0 || i == 3))

/-- A request from a die to a die is answered DIE_LOST when the target is lost or a seam of its fixed path is fenced
for a lost die (R447). -/
def State.pathLost (s : State) (a b : Nat) : Bool :=
  s.dieLost a || s.dieLost b ||
    (pathSeams a b).any fun i => s.seamLost i

/-- A clock domain other than a die's has been lost: its block is down until start-up runs again (R44). [log 100: DEDUCED] -/
def State.domainLostAt (s : State) (n : Nat) : Bool := s.domainLost.contains n

/-- A seam of the fixed path between two dies has lost its clock (R44). -/
def State.pathDown (s : State) (a b : Nat) : Bool := (pathSeams a b).any fun i => s.domainLostAt (12 + i)

/-- The status a memory access from a die meets before any data moves: DIE_LOST on a lost die or path and, in the
contained state, in all near memory (R316, R447, R449, R450), BUS on a far port whose link is down (R293), over a seam or
on a stack that lost its clock (R44), else OK. [log 100: DEDUCED] -/
def State.reach (s : State) (fromDie a : Nat) : Status :=
  let r := s.region a
  if s.pathLost fromDie r.die then .dieLost
  else if s.pathDown fromDie r.die then .bus
  else match r with
    | .near st => if s.contained then .dieLost else if s.domainLostAt (4 + st) then .bus else .ok
    | .far p => if flag (s.reg (cxlReg p 0)) 0 then .ok else .bus
    | _ => .ok

/-- The status that an access of n bytes from a die meets: that of every 4 KiB granule it touches, since granules of one
range lie in several stacks (R27, R28, R284). -/
def State.reachAll (s : State) (fromDie a n : Nat) : Status :=
  if n = 0 then .ok
  else (List.range ((a + n - 1) / 4096 - a / 4096 + 1)).foldl
    (fun st g => st.merge (s.reach fromDie (max a ((a / 4096 + g) * 4096)))) .ok

/-- A tile's scratchpad address (R25). [log 61: DEDUCED] -/
def spBase (t : Nat) : Nat := 0xF00000000000 + t * 0x1000000

/-- A tile's instruction memory, as a device address (R183). -/
def imemBase (t : Nat) : Nat := 0xF80002000000 + t * 0x10000

/-- A tile's die. -/
def tileDie (t : Nat) : Nat := t / 64

/-! ### Interrupts (R396) -/

/-- Vectors of a function: 64 on a PF, 8 on a VF (R372). -/
def vectors (fn : Nat) : Nat := if fn = 0 then 64 else 8

/-- The key of a half of an MSI-X table entry: half 0 the address, half 1 data and vector control. -/
def msixKey (port fn vec half : Nat) : Nat := ((port * 32 + fn) * 64 + vec) * 2 + half

/-- An entry nothing has written is masked, as PCI Express resets its Vector Control (log 5). -/
def msixReset (k : Nat) : Word := if k % 2 = 1 then 0x100000000 else 0

/-- The mask bit of a vector. [log 5: PRESUMED] -/
def State.msixMasked (s : State) (port fn vec : Nat) : Bool := flag (tget msixReset s.msix (msixKey port fn vec 1)) 32

/-- An interrupt message for a vector: sent, or held in the Pending Bit Array while masked; an event that finds its
vector pending adds nothing (R396). -/
def State.interrupt (s : State) (port fn vec : Nat) : State :=
  if vectors fn ≤ vec ∨ (port, fn, vec) ∈ s.msixPend then s
  else if s.msixMasked port fn vec then { s with msixPend := s.msixPend ++ [(port, fn, vec)] }
  else s.emit (.interrupt port fn vec)

/-- The bank of a partition's host-interface registers in the register file: partition 1 has its own
administration registers, routes and MSI-X tables (R31, R409). [log 4: DEDUCED] -/
def adminBank (part : Nat) : Nat := part * 0x10000000

/-- An interrupt of a source of R396 through one partition's TQ_INT_ROUTE. -/
def State.routeInt (s : State) (part n : Nat) : State :=
  let r := s.reg (adminBank part + routeReg n)
  if flag r 15 then s.interrupt (s.portOf part) (field r 12 8) (field r 7 0) else s

/-- A source's interrupt: the source index is relative to its partition in Split mode. -/
def State.chanInt (s : State) (ch : Nat) : State :=
  if s.split then
    if ch < 512 then s.routeInt (ch / 256) (ch % 256)
    else s.routeInt ((ch - 512) / 128) (512 + (ch - 512) % 128)
  else s.routeInt 0 ch

/-- The interrupt of a stack (sources 769 to 776). -/
def State.stackInt (s : State) (st : Nat) : State :=
  if s.split then s.routeInt (st / 4) (769 + st % 4) else s.routeInt 0 (769 + st)

/-- An interrupt of the whole module (governor 768, fabric 777): in Split mode each partition's route is used. -/
def State.moduleInt (s : State) (n : Nat) : State :=
  if s.split then (s.routeInt 0 n).routeInt 1 n else s.routeInt 0 n

/-- The partition of a queue. -/
def State.queuePart (s : State) (q : Nat) : Nat := if s.split then q / 2048 else 0

/-- A queue's fault interrupt (R395, R396). -/
def State.queueInt (s : State) (q : Nat) : State :=
  let cfg := s.reg (queueReg q 0)
  s.interrupt (s.portOf (s.queuePart q)) (field cfg 13 9) (field cfg 28 21)

/-! ### Sync counters (R393) and local events (R178) -/

/-- The network die that holds a counter or a queue (R448): by half of the number. -/
def ctrDie (i : Nat) : Nat := if i < 32768 then 2 else 3
/-- The network die that holds a queue (R448). -/
def queueDie (q : Nat) : Nat := if q < 2048 then 2 else 3

/-- A counter's value. -/
def State.ctr (s : State) (i : Nat) : Word := s.reg (ctrReg i)

/-- An addition to a counter, modulo 2^64; a signal to a counter of a lost die is dropped and counted (R448). -/
def State.ctrAdd (s : State) (i : Nat) (v : Word) : State :=
  if s.dieLost (ctrDie i) then s.count 0x50 1 else s.setReg (ctrReg i) (s.ctr i + v)

/-- A set of a counter; a lost die's counters ignore writes (R448). -/
def State.ctrSet (s : State) (i : Nat) (v : Word) : State :=
  if s.dieLost (ctrDie i) then s else s.setReg (ctrReg i) v

/-- The whole-module number of a partition's counter; none beyond the partition (R393). -/
def State.physCtr (s : State) (part i : Nat) : Option Nat :=
  if !s.split then some i else if i < 32768 then some (i + part * 32768) else none

/-- TILE_EVn of a tile (R192). -/
def evReg (t n : Nat) : Nat := tileBase t + 0x100 + 4 * n

/-- A local event counter. -/
def State.ev (s : State) (t n : Nat) : BitVec 32 := (s.reg (evReg t n)).setWidth 32

/-- A local event counter set (R178). -/
def State.setEv (s : State) (t n : Nat) (v : BitVec 32) : State := s.setReg (evReg t n) (v.setWidth 64)

/-- A local event counter plus 1, modulo 2^32 (R178). -/
def State.incEv (s : State) (t n : Nat) : State := s.setEv t n (s.ev t n + 1)

/-- Whether an event has reached a wait value: the difference modulo 2^32 is below 2^31 (R179). -/
def evReached (ev val : BitVec 32) : Bool := decide ((ev - val).toNat < 2 ^ 31)

/-! ### Units -/

/-- A tile. -/
def State.tile (s : State) (t : Nat) : Tile := tget (fun _ => Tile.reset) s.tiles t
/-- The state with one tile written. -/
def State.setTile (s : State) (t : Nat) (x : Tile) : State :=
  { s with tiles := tset (fun _ => Tile.reset) s.tiles t x }
/-- A channel. -/
def State.chan (s : State) (ch : Nat) : Chan := tget (fun _ => Chan.reset) s.chans ch
/-- The state with one channel written. -/
def State.setChan (s : State) (ch : Nat) (x : Chan) : State :=
  { s with chans := tset (fun _ => Chan.reset) s.chans ch x }
/-- A stack. -/
def State.stack (s : State) (i : Nat) : Stack := tget (fun _ => Stack.reset) s.hbm i
/-- The state with one stack written. -/
def State.setStack (s : State) (i : Nat) (x : Stack) : State :=
  { s with hbm := tset (fun _ => Stack.reset) s.hbm i x }
/-- A flow context beyond its record. -/
def State.flow (s : State) (i : Nat) : Flow := tget (fun _ => Flow.reset) s.flows i
/-- The state with one flow written. -/
def State.setFlow (s : State) (i : Nat) (x : Flow) : State :=
  { s with flows := tset (fun _ => Flow.reset) s.flows i x }
/-- A link: sub-port `sub` of an optical port. -/
def State.link (s : State) (port sub : Nat) : Link := tget (fun _ => Link.reset) s.links (4 * port + sub)
/-- The state with one link written. -/
def State.setLink (s : State) (port sub : Nat) (x : Link) : State :=
  { s with links := tset (fun _ => Link.reset) s.links (4 * port + sub) x }
/-- A queue beyond its registers. -/
def State.queue (s : State) (q : Nat) : Queue := tget (fun _ => Queue.reset) s.queues q
/-- The state with one queue written. -/
def State.setQueue (s : State) (q : Nat) (x : Queue) : State :=
  { s with queues := tset (fun _ => Queue.reset) s.queues q x }
/-- A mailbox channel: direction (0 H2D, 1 D2H), port, channel. -/
def State.mail (s : State) (dir port ch : Nat) : Mbox := tget (fun _ => Mbox.reset) s.mbox ((dir * 2 + port) * 16 + ch)
/-- The state with one mailbox channel written. -/
def State.setMail (s : State) (dir port ch : Nat) (x : Mbox) : State :=
  { s with mbox := tset (fun _ => Mbox.reset) s.mbox ((dir * 2 + port) * 16 + ch) x }
/-- A host port. -/
def State.port (s : State) (p : Nat) : HostPort := tget (fun _ => HostPort.reset) s.ports p
/-- The state with one host port written. -/
def State.setPort (s : State) (p : Nat) (x : HostPort) : State :=
  { s with ports := tset (fun _ => HostPort.reset) s.ports p x }

/-! ### Fetched commands -/

/-- The fetched command with a number. -/
def State.cmd? (s : State) (cid : Nat) : Option Cmd := s.cmds.find? fun c => c.cid == cid

/-- The state with one fetched command replaced. -/
def State.setCmd (s : State) (c : Cmd) : State :=
  { s with cmds := s.cmds.map fun d => if d.cid = c.cid then c else d }

/-- A command takes its final status; COMMAND_COMPLETE or GRAPH_NODE_COMPLETE reports it. A command that already has
one keeps it. -/
def State.finish (s : State) (cid : Nat) (st : Status) : State :=
  { s with cmds := s.cmds.map fun c =>
      if c.cid = cid then (match c.phase with | .done _ => c | _ => { c with phase := .done st }) else c }

/-- The opcode byte of a command (R386). -/
def Cmd.opc (c : Cmd) : Nat := byteAt c.bytes 0

/-- The function of a host port whose requests a command's host accesses use (R380, R390). -/
def State.cmdFunc (s : State) (c : Cmd) : Nat :=
  match c.origin with
  | .queue q _ => field (s.reg (queueReg q 0)) 13 9
  | .node l _ => match s.glaunches.find? fun g => g.id == l with
    | some g => g.func
    | none => 0

/-- The queue a command came from, or whose launch posted it as a node (R396). -/
def State.cmdQueue (s : State) (cid : Nat) : Option Nat :=
  match s.cmd? cid with
  | some c => match c.origin with
    | .queue q _ => some q
    | .node l _ => match s.glaunches.find? fun g => g.id == l with
      | some g => match s.cmd? g.cid with
        | some d => match d.origin with
          | .queue q _ => some q
          | .node _ _ => none
        | none => none
      | none => none
  | none => none

/-! ### Mailboxes (R411 to R417) -/

/-- MBX_INT_EN, MBX_INT_VEC and MBX_OVERRUN_COUNT of a port (R431): i = 0, 1, 2. -/
def State.mboxReg (s : State) (port i : Nat) : BitVec 32 := tget (fun _ => 0) s.mboxRegs (port * 4 + i)

/-- One of them written. -/
def State.setMboxReg (s : State) (port i : Nat) (v : BitVec 32) : State :=
  { s with mboxRegs := tset (fun _ => 0) s.mboxRegs (port * 4 + i) v }

/-- A port's mailbox interrupt, on its PF (R417). -/
def State.mboxInt (s : State) (port : Nat) : State := s.interrupt port 0 ((s.mboxReg port 1).toNat % 64)

/-- A device message put into an empty D2H channel (R412), with its interrupt (R417). -/
def State.d2hSend (s : State) (port ch : Nat) (msg : BitVec 32) : State :=
  let m := s.mail 1 port ch
  let s := s.setMail 1 port ch { m with data := msg, isFull := true }
  if (s.mboxReg port 0).toNat.testBit (16 + ch) then s.mboxInt port else s

/-- Flint's message on secure channel 8: held while the channel is full (R415). -/
def State.flintSend (s : State) (port : Nat) (msg : BitVec 32) : State :=
  if (s.mail 1 port 8).isFull then { s with d2hHeld := s.d2hHeld ++ [(Fin.ofNat 2 port, msg)] }
  else s.d2hSend port 8 msg

end Sys2Proof.Machine
end

