-- ==== Sys2Proof/Machine/Operands.lean ====
section
/-! DEFINITION. Operand forms of the tile processor: slots, their fields and reserved encodings, the queued-command
header, plates and base overrides (07_bundle_reference.md). -/
namespace Sys2Proof.Machine

/-! ### Slots (R193 to R195) -/

/-- Slot n of a bundle's words. -/
def slotOf (ws : List Word) (n : Nat) : Word := ws.getD n 0

/-- PRED (R193). -/
def slotPred (w : Word) : Nat := field w 63 60
/-- OPC (R193). -/
def slotOpc (w : Word) : Nat := field w 59 52

/-- The operand bits [51:0] that the row of a slot's opcode names; none where the opcode is reserved in that slot
(R200 to R216). -/
def operandMask (slot opc : Nat) : Option Nat :=
  match slot with
  | 0 => match opc with
    | 0x01 => some 0
    | 0x02 => some 0x1FF8000000000
    | 0x03 => some 0xFFFFEFFFFFFFF
    | 0x04 => some 0xFFF8000000000
    | 0x05 => some 0x7EFFFFFFFF
    | 0x06 => some 0xFFFF80000FFFF
    | 0x07 => some 0xE007EFFFFFFFF
    | _ => none
  | 1 => if (0x10 ≤ opc ∧ opc ≤ 0x1E) ∨ (0x20 ≤ opc ∧ opc ≤ 0x23) then some 0xFFFF0FFFFFFFF else none
  | 2 | 3 => match opc with
    | 0x20 => some 0xFFFF0FFFFFFFF
    | 0x21 => some 0xFFFFFFFFFFFFF
    | 0x22 => some 0xFFFFFFFFFFFFF
    | 0x23 => some 0xFFC0000000000
    | 0x24 => some 0xFFC0000000000
    | 0x25 => some 0xFFFFFFFF
    | _ => none
  | 4 | 5 => match opc with
    | 0x80 | 0x81 | 0x82 | 0x89 => some 0xFFFFFFFFFFFFE
    | 0x88 => some 0xFFFFFFFFFC002
    | _ => none
  | 6 =>
    if (0x40 ≤ opc ∧ opc ≤ 0x48) ∨ (0x50 ≤ opc ∧ opc ≤ 0x52) ∨ opc = 0x58 then some 0xFFFFFFFFFFF00 else none
  | 7 => match opc with
    | 0x20 | 0x21 => some 0xFFF0000FFFFFF
    | 0x30 => some 0xFFFFFFFFFFE00
    | 0x60 | 0x61 => some 0x7FE00FFFFFFFF
    | 0x68 | 0x69 | 0xC0 => some 0xFFFFFFFFFFFFF
    | _ => none
  | _ => none

/-- Whether a slot operation carries the header of R197 (R205, R211, R213). -/
def isQueued (slot opc : Nat) : Bool :=
  slot == 4 || slot == 5 || slot == 6 || (slot == 7 && (opc == 0x30 || opc == 0x68 || opc == 0x69 || opc == 0xC0))

/-- The header rules of R197. -/
def headerBad (w : Word) : Bool :=
  (!flag w 51 && field w 50 47 != 0) || (!flag w 46 && field w 45 36 != 0)

/-- An override with EN = 0 has index 0 (R199). -/
def overrideBad (w : Word) (lo : Nat) : Bool := !flag w (lo + 5) && field w (lo + 4) lo != 0

/-- Whether a vector opcode reads Y (R211). -/
def readsY (opc : Nat) : Bool := (decide (0x41 ≤ opc) && decide (opc ≤ 0x46)) || opc == 0x48

/-- Reserved values in the defined fields of a slot's word. -/
def fieldsBad (slot opc : Nat) (w : Word) : Bool :=
  match slot with
  | 0 =>
    if opc = 0x03 ∨ opc = 0x05 ∨ opc = 0x07 then
      if flag w 38 then field w 31 0 != 0 else field w 37 33 != 0
    else if opc = 0x06 then
      field w 49 47 == 6 || (flag w 46 && decide (8 ≤ field w 45 41)) ||
        (if flag w 40 then field w 39 35 != 0 else field w 15 0 != 0)
    else false
  | 1 =>
    if opc = 0x20 ∨ opc = 0x21 then field w 46 36 != 0
    else if opc = 0x22 then field w 41 36 != 0 || field w 31 0 != 0
    else if opc = 0x23 then decide (8 ≤ field w 46 42) || field w 41 36 != 0 || field w 31 0 != 0
    else if flag w 41 then field w 31 0 != 0 else field w 40 36 != 0
  | 2 | 3 => if opc = 0x20 then (if flag w 41 then field w 31 0 != 0 else field w 40 36 != 0) else false
  | 4 | 5 =>
    headerBad w ||
    (if opc = 0x88 then !flag w 19 && field w 35 20 != 0
     else overrideBad w 20 || overrideBad w 14 || overrideBad w 8 || overrideBad w 2) ||
    (slot == 4 && (flag w 1 || opc == 0x81 || opc == 0x82)) ||
    (opc == 0x81 && flag w 1) || (opc == 0x82 && !flag w 1) ||
    (opc == 0x89 && field w 25 14 != 0)
  | 6 =>
    headerBad w || overrideBad w 20 || overrideBad w 14 || overrideBad w 8 ||
    (!readsY opc && field w 19 14 != 0) || (opc == 0x58 && field w 13 8 != 0)
  | 7 =>
    (isQueued 7 opc && headerBad w) ||
    (if opc = 0x30 then (if flag w 28 then field w 22 11 == 0 else field w 27 11 != 0)
     else if opc = 0x60 ∨ opc = 0x61 then (if flag w 46 then field w 31 0 != 0 else field w 45 41 != 0)
     else if opc = 0x68 ∨ opc = 0x69 ∨ opc = 0xC0 then
       (!flag w 19 && field w 18 14 != 0) || (if flag w 13 then field w 7 0 != 0 else field w 12 8 != 0)
     else false)
  | _ => false

/-- Whether a slot's own word is a reserved encoding (R193 to R195). A NOP must be all zeros. -/
def wordReserved (slot : Nat) (w : Word) : Bool :=
  if slotOpc w = 0 then w != 0
  else
    (decide (1 ≤ slotPred w) && decide (slotPred w ≤ 7)) ||
    match operandMask slot (slotOpc w) with
    | none => true
    | some m => (w.toNat % 2 ^ 52) &&& (2 ^ 52 - 1 - m) != 0 || fieldsBad slot (slotOpc w) w

/-- Kernel-only encodings (R187, R213, R215). -/
def kernelOnly (slot : Nat) (w : Word) : Bool :=
  slot == 7 && (slotOpc w == 0xC0 || (slotOpc w == 0x30 && (flag w 10 || flag w 9)))

/-- Why a slot's own word is discarded, if it is: PRIV before FORMAT, but a reserved PRED always with FORMAT (R195). -/
def wordDiscard (kernel : Bool) (slot : Nat) (w : Word) : Option Status :=
  if 1 ≤ slotPred w ∧ slotPred w ≤ 7 then some .format
  else if !kernel && kernelOnly slot w then some .priv
  else if wordReserved slot w then some .format
  else none

/-- Whether a slot names a plate: its opcode takes one and its own word is not reserved (R198). -/
def namesPlate (slot : Nat) (w : Word) : Bool :=
  !wordReserved slot w && slotOpc w != 0 &&
    (slot == 6 || ((slot == 4 || slot == 5) && slotOpc w != 0x88))

/-- The bundles of the plate a slot names (R198). -/
def plateBundles (slot : Nat) (w : Word) : List Nat :=
  let p := field w 35 26
  if !namesPlate slot w then [] else if slot = 6 then [p] else [p, (p + 1) % 1024]

/-! ### Register operands -/

/-- s[n] as the bundle reads it. -/
def RegView.sreg (r : RegView) (n : Nat) : Word := tget (fun _ => 0) r.s n
/-- a[n]. -/
def RegView.areg (r : RegView) (n : Nat) : Addr := tget (fun _ => 0) r.a n
/-- d[n]. -/
def RegView.dreg (r : RegView) (n : Nat) : Addr := tget (fun _ => 0) r.d n
/-- c[n]. -/
def RegView.creg (r : RegView) (n : Nat) : BitVec 32 := tget (fun _ => 0) r.c n

/-- A scratchpad offset taken from an address register: bits [23:0] (R165). -/
def RegView.aoff (r : RegView) (n : Nat) : Nat := (r.areg n).toNat % 2 ^ 24

/-- IMM [31:0], sign-extended to 64 bits. -/
def imm32 (w : Word) : Word := (w.setWidth 32).signExtend 64

/-- The second operand b of S1: s[RS2] when BREG = 1, else IMM sign-extended (R202). -/
def operandB (r : RegView) (w : Word) : Word := if flag w 41 then r.sreg (field w 40 36) else imm32 w

/-- A count: s[SREG][31:0] when CREG = 1, else IMM (R200). -/
def countOf (r : RegView) (w : Word) : Nat :=
  if flag w 38 then (r.sreg (field w 37 33)).toNat % 2 ^ 32 else field w 31 0

/-- The value of SYN.EVSET and SYN.WAITL (R214). -/
def eventValue (r : RegView) (w : Word) : BitVec 32 :=
  if flag w 46 then (r.sreg (field w 45 41)).setWidth 32 else w.setWidth 32

/-- The header of a queued command, its wait value taken at issue (R197). -/
def headerOf (r : RegView) (w : Word) : SlotHdr :=
  { sigEn := flag w 51, sigEv := field w 50 47, waitEn := flag w 46, waitEv := field w 45 42
    waitVal := if flag w 41 then (r.sreg (field w 40 36)).setWidth 32 else BitVec.ofNat 32 (field w 40 36) }

/-! ### Plates (R199, R208, R212) -/

/-- A plate offset moved with its operand's base (R199). -/
def tied (r : RegView) (w : Word) (lo base v : Nat) : Nat :=
  if flag w (lo + 5) then (v + r.aoff (field w (lo + 4) lo) + 2 ^ 24 - base) % 2 ^ 24 else v

/-- The value [23:0] of an offset or stride word of a plate. -/
def plateOff (bs : List Byte) (i : Nat) : Nat := bytesN bs (i + 2) i

/-- A matrix plate as captured at issue, with the overrides A, B, ACC and O of the slot (R199, R205, R208). -/
def matrixPlate (r : RegView) (w : Word) (bs : List Byte) : MPlate :=
  let w0 := bytesN bs 3 0
  let o := plateOff bs
  { overwrite := bitN w0 0, fmtA := bitsN w0 4 1, fmtB := bitsN w0 8 5, scaledA := bitN w0 9, scaledB := bitN w0 10
    depth := bitsN w0 12 11, transA := bitN w0 13, transB := bitN w0 14, drain := bitN w0 15, clear := bitN w0 16
    ofmt := bitsN w0 20 17, rnd := bitsN w0 22 21, given := bitN w0 23, axisCols := bitN w0 24, zout := bitN w0 25
    deriv := bitN w0 26, zfmt := bitsN w0 30 27, stencil := byteAt bs 4
    m := bytesN bs 9 8, n := bytesN bs 11 10, k := bytesN bs 14 12
    aBase := tied r w 20 (o 16) (o 16), aStride := o 20, saBase := tied r w 20 (o 16) (o 24), saStride := o 28
    bBase := tied r w 14 (o 32) (o 32), bStride := o 36, sbBase := tied r w 14 (o 32) (o 40), sbStride := o 44
    accBase := tied r w 8 (o 48) (o 48), accStride := o 52
    oBase := tied r w 2 (o 56) (o 56), oStride := o 60, osBase := tied r w 2 (o 56) (o 64), osStride := o 68
    zBase := tied r w 2 (o 56) (o 72), zStride := o 76, zsBase := tied r w 2 (o 56) (o 80), zsStride := o 84
    s1 := BitVec.ofNat 32 (bytesN bs 91 88), s2 := BitVec.ofNat 32 (bytesN bs 95 92)
    tdst := BitVec.ofNat 32 (bytesN bs 99 96), tid := BitVec.ofNat 32 (bytesN bs 103 100)
    seed := BitVec.ofNat 64 (bytesN bs 111 104) }

/-- A vector plate as captured at issue, with the overrides X, Y and D (R199, R211, R212). -/
def vectorPlate (r : RegView) (w : Word) (bs : List Byte) : VPlate :=
  let w0 := bytesN bs 3 0
  let o := plateOff bs
  { fmtX := bitsN w0 3 0, fmtY := bitsN w0 7 4, fmtD := bitsN w0 11 8, rnd := bitsN w0 13 12, scaledX := bitN w0 14
    scaledD := bitN w0 15, given := bitN w0 16, accX := bitN w0 17, stencil := bitsN w0 25 18, depth := bitsN w0 27 26
    rows := bytesN bs 5 4, cols := bytesN bs 7 6
    xBase := tied r w 20 (o 8) (o 8), xStride := o 12, yBase := tied r w 14 (o 16) (o 16), yStride := o 20
    dBase := tied r w 8 (o 24) (o 24), dStride := o 28, xsBase := tied r w 20 (o 8) (o 32)
    dsBase := tied r w 8 (o 24) (o 36), c := BitVec.ofNat 32 (bytesN bs 43 40)
    tdst := BitVec.ofNat 32 (bytesN bs 47 44), tid := BitVec.ofNat 32 (bytesN bs 51 48)
    seed := BitVec.ofNat 64 (bytesN bs 59 52) }

/-- A bundle that names no accumulator tile (R119, R206). -/
def unbacked : Nat := 0xFFFFFF

/-- The bytes of an accumulator tile (R92). -/
def tileBytes : Nat := 66624

/-- Whether a narrow operand carries block scales (R60). -/
def carriesScale (fmt : Nat) (scaled : Bool) : Bool := alwaysScaled fmt || (scaled && (fmt == 0 || fmt == 1 || fmt == 3))

/-- The operand pairs of R86. -/
def pairOk (a b : Nat) : Bool := (decide (a < 5) && decide (b < 6)) || (a == 10 && b == 10)

/-- STENCIL codes that name a function or pair (R227); every built-in pair has a derivative part (R234). -/
def stencilNamed (c : Nat) : Bool := (decide (1 ≤ c) && decide (c ≤ 7)) || (decide (0x80 ≤ c) && decide (c ≤ 0x87))

/-- Bits [31:24] of an offset or stride word must be 0 where the command uses the word (R208). -/
def highBad (bs : List Byte) (used : List (Nat × Bool)) : Bool := used.any fun u => u.2 && byteAt bs (u.1 + 3) != 0

/-- Reserved bits of a matrix plate that no setting of the command uses (R208). -/
def mPlateReserved (bs : List Byte) : Bool :=
  bitN (bytesN bs 3 0) 31 || bytesN bs 7 5 != 0 || byteAt bs 15 != 0 || bytesN bs 127 112 != 0

/-- Settings of a drain that are reserved (R107, R118, R147, R151, R209). -/
def drainReserved (opc : Nat) (p : MPlate) : Bool :=
  (p.drain && (decide (8 < p.ofmt) || p.rnd == 1 || p.rnd == 3 || p.oBase % 16 != 0 || p.oStride % 16 != 0 ||
    (p.stencil != 0 && !stencilNamed p.stencil))) ||
  (p.zout && opc != 0x80) || (p.deriv && opc != 0x81) ||
  ((p.zout || p.deriv) && (!p.drain || p.stencil == 0 || !(p.zfmt == 0 || p.zfmt == 6 || p.zfmt == 7 || p.zfmt == 8) ||
    p.zBase % 16 != 0 || p.zStride % 16 != 0))

/-- The tiles of a command's grid (R116). -/
def gridTiles (p : MPlate) : Nat := ceilDiv p.m 64 * ceilDiv p.n 64

/-- Reserved combinations of a matrix command's captured plate (R86, R118, R119, R207 to R209, R246). -/
def matrixReserved (opc : Nat) (p : MPlate) (bs : List Byte) : Bool :=
  let z := p.zout || p.deriv
  let prod := opc != 0x89
  let backed := p.accBase != unbacked
  mPlateReserved bs || drainReserved opc p ||
  (backed && p.accBase % 64 != 0) ||
  (if prod then
    !pairOk p.fmtA p.fmtB || (p.fmtA == 10 && p.depth == 0) ||
    p.aBase % 16 != 0 || p.aStride % 16 != 0 || p.bBase % 16 != 0 || p.bStride % 16 != 0 ||
    (!backed && !(p.overwrite && p.drain)) ||
    (backed && (p.accStride % 64 != 0 || (decide (1 < gridTiles p) && decide (p.accStride < tileBytes))))
   else !p.drain || decide (64 < p.m) || decide (64 < p.n) || p.zout || p.deriv || !backed) ||
  highBad bs [(16, prod), (20, prod), (24, prod && carriesScale p.fmtA p.scaledA),
    (28, prod && carriesScale p.fmtA p.scaledA), (32, prod), (36, prod), (40, prod && carriesScale p.fmtB p.scaledB),
    (44, prod && carriesScale p.fmtB p.scaledB), (48, true), (52, prod && backed), (56, p.drain), (60, p.drain),
    (64, p.drain && isNarrow p.ofmt), (68, p.drain && isNarrow p.ofmt), (72, z), (76, z), (80, z && p.zfmt == 0),
    (84, z && p.zfmt == 0)]

/-- Conversions that R72 lists, from format `x` (0xB: an accumulator tile) to format `d`. -/
def cvtListed (x d : Nat) : Bool :=
  if d = 10 then isWide x || x == 9
  else if x = 9 then d == 8
  else (isNarrow x || isWide x || x == 11) && decide (d < 9)

/-- Reserved combinations of a vector command's captured plate (R212, R223). R212 names ACC_X and FMT_D whatever the
opcode, so they count for VOP.TLOAD too. [log 148: DEDUCED] -/
def vectorReserved (opc : Nat) (p : VPlate) (bs : List Byte) : Bool :=
  let red := opc == 0x50 || opc == 0x51 || opc == 0x52
  let cvt := opc == 0x40
  bitsN (bytesN bs 3 0) 31 28 != 0 || bytesN bs 63 60 != 0 ||
  if opc = 0x58 then
    p.accX || (decide (9 ≤ p.fmtD) && decide (p.fmtD ≤ 11)) || !(decide (0x80 ≤ p.stencil) && decide (p.stencil ≤ 0x87)) || p.xBase % 16 != 0 || byteAt bs 11 != 0
  else
    p.fmtX == 10 || decide (11 < p.fmtX) || (p.fmtX == 9 && !cvt) || ((p.fmtX == 11) != p.accX) ||
    (p.accX && (!(cvt || opc == 0x51 || opc == 0x52) || decide (64 < p.rows) || decide (64 < p.cols) ||
      (cvt && p.rnd == 1) || p.xBase % 64 != 0)) ||
    p.fmtD == 9 || decide (10 < p.fmtD) || (p.fmtD == 10 && (!cvt || p.depth == 0)) ||
    (p.fmtX == 9 && p.fmtD == 10 && p.depth == 1) || (p.rnd == 3 && opc != 0x51 && opc != 0x52) ||
    (red && p.fmtD != 8) || (opc == 0x43 && !isWide p.fmtD) || (readsY opc && !isWide p.fmtY) ||
    ((opc == 0x47 || opc == 0x48) && !stencilNamed p.stencil) || (cvt && !cvtListed p.fmtX p.fmtD) ||
    p.xBase % 16 != 0 || (!p.accX && p.xStride % 16 != 0) ||
    (readsY opc && (p.yBase % 16 != 0 || p.yStride % 16 != 0)) ||
    p.dBase % 16 != 0 || (!red && p.dStride % 16 != 0) ||
    highBad bs [(8, true), (12, !p.accX), (16, readsY opc), (20, readsY opc), (24, true), (28, !red),
      (32, !p.accX && carriesScale p.fmtX p.scaledX), (36, carriesScale p.fmtD p.scaledD)]

/-! ### Commands the slots issue -/

/-- The vector operation of an opcode (R211). -/
def vopOf (opc : Nat) : VOp :=
  match opc with
  | 0x41 => .add | 0x42 => .mul | 0x43 => .fma | 0x44 => .axpy | 0x45 => .max | 0x46 => .min | 0x47 => .sten
  | 0x48 => .dsten | 0x50 => .rsum | 0x51 => .rmax | 0x52 => .sent | 0x58 => .tload | _ => .cvt

/-- The product or drain of an opcode (R205). -/
def mopOf (opc : Nat) : MOp :=
  match opc with
  | 0x81 => .dx | 0x82 => .dw | 0x89 => .drain | _ => .f

/-- The counter a queued SYN operation names (R216). -/
def synCtr (r : RegView) (w : Word) : Nat :=
  (field w 35 20 + if flag w 19 then (r.sreg (field w 18 14)).toNat % 65536 else 0) % 65536

/-- The value of a queued SYN operation (R216). -/
def synVal (r : RegView) (w : Word) : Word :=
  if flag w 13 then r.sreg (field w 12 8) else BitVec.ofNat 64 (field w 7 0)

/-- The work of a queued slot, its operands taken at issue (R165, R205, R206, R211, R215, R216). -/
def workOf (r : RegView) (slot : Nat) (w : Word) (plate : List Byte) : Work :=
  let opc := slotOpc w
  if slot = 4 ∨ slot = 5 then
    if opc = 0x88 then .accInit (r.aoff (field w 18 14)) (flag w 19) (signed 16 (field w 35 20))
    else .mm (mopOf opc) (matrixPlate r w plate)
  else if slot = 6 then .vop (vopOf opc) (vectorPlate r w plate)
  else match opc with
    | 0x30 => .xfer (field w 35 34) (r.aoff (field w 33 29))
        (if flag w 28 then some (r.aoff (field w 27 23), field w 22 11 * 4096) else none) (flag w 10) (flag w 9)
    | 0x68 => .signal (synCtr r w) (synVal r w)
    | 0x69 => .waitge (synCtr r w) (synVal r w)
    | _ => .cset (synCtr r w) (synVal r w)

/-- Whether the mode in effect rejects a matrix command of S5 (R143, R205); `allFwd` is the mode. -/
def modeRejects (allFwd : Bool) (slot opc : Nat) : Bool :=
  slot == 5 && (if allFwd then opc == 0x81 || opc == 0x82 else opc == 0x80)

/-- Reserved combinations that a slot's captured operands show (R195, R205 to R212). -/
def comboReserved (allFwd : Bool) (r : RegView) (slot : Nat) (w : Word) (plate : List Byte) : Bool :=
  modeRejects allFwd slot (slotOpc w) ||
  match workOf r slot w plate with
  | .mm _ p => (slot == 4 || slot == 5) && matrixReserved (slotOpc w) p plate
  | .accInit b _ _ => b % 64 != 0
  | .vop _ p => vectorReserved (slotOpc w) p plate
  | _ => false

/-! ### Registers a slot writes (R196) -/

/-- Register kinds and numbers a slot would write: 0 counters, 1 comparators, 2 scalars, 3 addresses, 4 strides.
[log 33: DEDUCED] -/
def slotWrites (slot : Nat) (w : Word) : List (Nat × Nat) :=
  let opc := slotOpc w
  match slot with
  | 0 => if opc = 3 ∨ opc = 4 ∨ opc = 7 then [(0, field w 51 49)] else if opc = 6 then [(1, field w 51 50)] else []
  | 1 => [(2, field w 51 47)]
  | 2 | 3 =>
    if opc = 0x25 then ((List.range 32).filter fun n => flag w n).map fun n => (3, n)
    else if opc = 0x22 ∨ opc = 0x24 then [(4, field w 51 47)]
    else [(3, field w 51 47)]
  | 7 => if opc = 0x20 then [(2, field w 49 45)] else []
  | _ => []

/-- Whether a bundle's slot reads a scalar, address, stride or counter register (R458). -/
def slotReads (slot : Nat) (w : Word) : Bool :=
  let opc := slotOpc w
  decide (8 ≤ slotPred w) ||
  match slot with
  | 0 => opc == 4 || ((opc == 3 || opc == 5 || opc == 7) && flag w 38)
  | 1 => opc != 0x20
  | 2 | 3 => opc == 0x20 || opc == 0x23 || opc == 0x24 || (opc == 0x25 && field w 31 0 != 0)
  | 4 | 5 => opc == 0x88 || (flag w 46 && flag w 41) || flag w 25 || flag w 19 || flag w 13 || flag w 7
  | 6 => (flag w 46 && flag w 41) || flag w 25 || flag w 19 || flag w 13
  | _ => if opc = 0x60 ∨ opc = 0x61 then flag w 46
    else if opc = 0x68 ∨ opc = 0x69 ∨ opc = 0xC0 then (flag w 46 && flag w 41) || flag w 19 || flag w 13 else true

end Sys2Proof.Machine
end

