-- ==== Sys2Proof/Machine/Flags.lean ====
section
/-! DEFINITION. Predicates and comparators (R166, R194, R201), and the status bits an operation leaves. -/
namespace Sys2Proof.Machine

/-- A comparator's condition on its source and operand: LT and GE signed, LTU and GEU unsigned (R166). -/
def Cond.holds (c : Cond) (a b : Word) : Bool :=
  match c with
  | .eq => a == b
  | .ne => a != b
  | .lt => a.slt b
  | .ge => !a.slt b
  | .ltu => a.ult b
  | .geu => !a.ult b
  | .never => false

/-- Predicate pN over the registers a bundle reads (R166). -/
def RegView.predicate (r : RegView) (n : Nat) : Bool :=
  let k := tget (fun _ => Comparator.reset) r.cmps n
  let a := if k.srcCnt then (r.creg k.src).setWidth 64 else r.sreg k.src
  let b := if k.opImm then k.imm else r.sreg k.opReg
  k.cond.holds a b

/-- Whether a PRED value is true: always, pN, not pN (R194). Reserved values are checked apart (R195). -/
def RegView.predTrue (r : RegView) (pred : Nat) : Bool :=
  if pred < 8 then true
  else if pred < 12 then r.predicate (pred - 8) else !r.predicate (pred - 12)

/-- COND codes (R201). -/
def condOf (c : Nat) : Cond :=
  match c with
  | 0 => .eq | 1 => .ne | 2 => .lt | 3 => .ge | 4 => .ltu | 5 => .geu | _ => .never

/-- The configuration that a CMP.SET word writes (R201). -/
def comparatorOf (w : Word) : Comparator :=
  { cond := condOf (field w 49 47), srcCnt := flag w 46, src := field w 45 41, opImm := flag w 40
    opReg := field w 39 35, imm := (w.setWidth 16).signExtend 64 }

/-- Status of sticky conditions: SAT, then INEXACT, then OK (R103, R112). -/
def stickyStatus (sat inexact : Bool) : Status := if sat then .sat else if inexact then .inexact else .ok

end Sys2Proof.Machine
end

