-- ==== Sys2Proof/Machine/Tasks.lean ====
section
/-! DEFINITION. Tasks, retirement and task faults (R163 to R190), and the suspect counter (R460 to R464): the shared
operations of the tile families. -/
namespace Sys2Proof.Machine

/-! ### Banks (R163) -/

/-- A task-state bank. -/
def Tile.bank (x : Tile) (i : Bool) : Bank := if i then x.bank1 else x.bank0

/-- A tile with one bank replaced. -/
def Tile.setBank (x : Tile) (i : Bool) (b : Bank) : Tile := if i then { x with bank1 := b } else { x with bank0 := b }

/-- The bank the tile runs from. -/
def Tile.cur (x : Tile) : Bank := x.bank x.active

/-- The bank of a task, while it holds one. -/
def Tile.bankOf (x : Tile) (cid : Nat) : Option Bool :=
  if x.bank0.phase ≠ .free ∧ x.bank0.cid = cid then some false
  else if x.bank1.phase ≠ .free ∧ x.bank1.cid = cid then some true
  else none

/-- Whether a bank's pin range covers a bundle (R184). -/
def Bank.pins (b : Bank) (i : Nat) : Bool := decide ((i + 1024 - b.pinBase) % 1024 < b.pinLen)

/-- The registers of a bank as a bundle reads them (R164). -/
def Bank.view (b : Bank) : RegView := ⟨b.s, b.a, b.d, b.c, b.cmps⟩

/-- A bank with a scalar register written. -/
def Bank.setS (b : Bank) (n : Nat) (v : Word) : Bank := { b with s := tset (fun _ => 0) b.s n v }
/-- A bank with an address register written. -/
def Bank.setA (b : Bank) (n : Nat) (v : Addr) : Bank := { b with a := tset (fun _ => 0) b.a n v }
/-- A bank with a stride register written. -/
def Bank.setD (b : Bank) (n : Nat) (v : Addr) : Bank := { b with d := tset (fun _ => 0) b.d n v }
/-- A bank with a loop counter written. -/
def Bank.setC (b : Bank) (n : Nat) (v : BitVec 32) : Bank := { b with c := tset (fun _ => 0) b.c n v }
/-- A bank with a comparator configured. -/
def Bank.setCmp (b : Bank) (n : Nat) (k : Comparator) : Bank :=
  { b with cmps := tset (fun _ => Comparator.reset) b.cmps n k }

/-- The state with the active bank of a tile changed. -/
def State.onCur (s : State) (t : Nat) (f : Bank → Bank) : State :=
  let x := s.tile t
  s.setTile t (x.setBank x.active (f x.cur))

/-! ### Units and queues (R174, R177) -/

/-- A matrix unit of a tile. -/
def Tile.unit (x : Tile) (u : MUnit) : MUnitSt :=
  match u with
  | .f => x.f | .b0 => x.b0 | .b1 => x.b1

/-- A tile with one matrix unit replaced. -/
def Tile.setUnit (x : Tile) (u : MUnit) (m : MUnitSt) : Tile :=
  match u with
  | .f => { x with f := m } | .b0 => { x with b0 := m } | .b1 => { x with b1 := m }

/-- The number of a unit: 0 F, 1 B0, 2 B1 (R142). -/
def munitNum : MUnit → Nat
  | .f => 0 | .b0 => 1 | .b1 => 2

/-- Every command of a tile that has not retired: waiting or in flight. -/
def Tile.live (x : Tile) : List QCmd :=
  x.f.queue ++ x.b0.queue ++ x.b1.queue ++ x.vq ++ x.dm ++ x.dmFlight ++
    (match x.f.run with | some r => [r.cmd] | none => []) ++
    (match x.b0.run with | some r => [r.cmd] | none => []) ++
    (match x.b1.run with | some r => [r.cmd] | none => []) ++
    (match x.vrun with | some r => [r.cmd] | none => [])

/-- A task's commands in every queue that have not started (R189, R190). -/
def Tile.dropWaiting (x : Tile) (cid : Nat) : Tile :=
  let keep := fun (q : List QCmd) => q.filter fun c => c.cid != cid
  { x with f := { x.f with queue := keep x.f.queue }, b0 := { x.b0 with queue := keep x.b0.queue }
           b1 := { x.b1 with queue := keep x.b1.queue }, vq := keep x.vq, dm := keep x.dm }

/-- The scratchpad range a command names for the interlock: first byte and length (R136, R206, R207, R212, R215). -/
def QCmd.range (c : QCmd) : Option (Nat × Nat) :=
  match c.work with
  | .mm .drain p => some (p.accBase, tileBytes)
  | .mm _ p =>
    if p.accBase = unbacked ∨ gridTiles p = 0 then none
    else some (p.accBase, (gridTiles p - 1) * p.accStride + tileBytes)
  | .accInit b _ _ => some (b, tileBytes)
  | .vop _ p => if p.accX then some (p.xBase, tileBytes) else none
  | .xfer _ _ r _ _ => r
  | _ => none

/-- Whether two ranges share a byte. -/
def overlap (a b : Nat × Nat) : Bool := decide (a.1 < b.1 + b.2) && decide (b.1 < a.1 + a.2)

/-- The interlock (R137, R138): an earlier command that names an overlapping range has not retired. -/
def Tile.interlocked (x : Tile) (c : QCmd) : Bool :=
  match c.range with
  | none => false
  | some r => x.live.any fun d => decide (d.seq < c.seq) && match d.range with
    | some r' => overlap r r'
    | none => false

/-- Whether a queued command's event wait is met (R179). -/
def State.waitMet (s : State) (t : Nat) (c : QCmd) : Bool := !c.hdr.waitEn || evReached (s.ev t c.hdr.waitEv) c.hdr.waitVal

/-! ### Suspect tiles (R460 to R464) -/

/-- Flint's message about a tile: to the owning port, or to the port of the tile's partition (R461).
[log 39: DEDUCED] -/
def State.tileMsg (s : State) (t : Nat) (msg : Nat) : State :=
  s.flintSend (s.portOf (if s.split then t / 64 else 0)) (BitVec.ofNat 32 msg)

/-- Remedy n takes effect on a tile (R462 to R464), is shown in TILE_SUS_STATUS and reported (R461). -/
def State.remedy (s : State) (t n : Nat) : State :=
  let x := s.tile t
  let s := s.setTile t { x with applied := x.applied ++ [n], retireReq := x.retireReq || n == 3 }
  let o := tileBase t + 0x4000
  let s := (s.putReg o 1 0 (x.applied.length + 1)).putBit o 4 true
  let i := t % 64 / 8
  let v := 0xA0000 + 4 * (t / 64)
  let s := if n = 1 then s.putReg v (2 * i + 1) (2 * i) (min 3 (field (s.reg v) (2 * i + 1) (2 * i) + 1))
    else if n = 2 then s.putBit o 2 true else s
  s.tileMsg t (0x04000000 + n * 0x10000 + t)

/-- A remedy whose threshold the counter's value reaches and that has not been applied yet (R461). [log 38: DEDUCED] -/
def State.remedyDue (s : State) (t n : Nat) : Bool :=
  let th := field (s.reg (tileBase t + 0x4008)) (8 * n - 1) (8 * n - 8)
  th != 0 && decide (th ≤ (s.reg (tileBase t + 0x4004)).toNat) && !(s.tile t).applied.contains n

/-- A suspect event of a tile: the counter goes up by 1 and reached thresholds apply, in table order (R460, R461). -/
def State.suspect (s : State) (t : Nat) : State :=
  let s := s.count (tileBase t + 0x4004) 1
  let s := if s.remedyDue t 1 then s.remedy t 1 else s
  let s := if s.remedyDue t 2 then s.remedy t 2 else s
  if s.remedyDue t 3 then s.remedy t 3 else s

/-- The place of a kind of check in TILE_CHK_LAST and of its counter (R474). -/
def chkNum : ChkKind → Nat
  | .row => 0 | .parity => 1 | .place => 2 | .win => 3 | .drain => 4

/-- A failed check: counted by kind and recorded in TILE_CHK_LAST (R459, R474); `unit` 3 is Stylus. -/
def State.checkFailed (s : State) (t unit : Nat) (k : ChkKind) (column : Nat) : State :=
  let s := s.count (tileBase t + 0x4010 + 4 * chkNum k) 1
  s.setReg (tileBase t + 0x4024) (BitVec.ofNat 64 (unit + 4 * chkNum k + 32 * (column % 128)))

/-! ### Task faults and retirement (R176, R178, R188 to R190) -/

/-- Where a task fault comes from (TILE_TASK_FAULT.SOURCE, R192). -/
inductive FaultSource where
  | fetch | f | b0 | b1 | vector | dm | scalar | imem | parity
  deriving DecidableEq, Repr

/-- SOURCE codes; a parity error reads 0 there (R192, R458). -/
def FaultSource.num : FaultSource → Nat
  | .fetch => 0 | .f => 1 | .b0 => 2 | .b1 => 3 | .vector => 4 | .dm => 5 | .scalar => 6 | .imem => 7 | .parity => 0

/-- The task fault of R189: the first fault of a task is latched, ends its issue, discards its unstarted commands and
raises its queue's fault interrupt; later ones change nothing. -/
def State.taskFault (s : State) (t : Nat) (bank : Bool) (st : Status) (src : FaultSource) (pc : Nat) : State :=
  let x := s.tile t
  let b := x.bank bank
  if b.phase = .free ∨ b.faulted then s
  else
    let b' := { b with faulted := true, worst := b.worst.merge st,
                       phase := if b.phase = .issuing then .ended else b.phase }
    let s := s.setTile t { (x.setBank bank b').dropWaiting b.cid with rep := if bank = x.active then none else x.rep }
    let s := s.setReg (tileBase t + 8) (BitVec.ofNat 64
      (st.code + 256 * src.num + (if bank then 2048 else 0) + 4096 * (pc % 1024) +
        (if src = .parity then 0x400000 else 0)))
    let s := s.putBit (tileBase t) 3 true
    match s.cmdQueue b.cid with
    | some q => s.queueInt q
    | none => s

/-- A status joins its task's status under R14, unless a fault has fixed it (R173, R189); of a task that is aborted, the
statuses of its commands in flight rank against ABORTED again (R190). [log 149: DEDUCED] -/
def State.taskStatus (s : State) (t cid : Nat) (st : Status) : State :=
  let x := s.tile t
  match x.bankOf cid with
  | some i =>
    let b := x.bank i
    if b.faulted && !b.aborted then s else s.setTile t (x.setBank i { b with worst := b.worst.merge st })
  | none => s

/-- A queued command retires with a status: its event on a result status (R178), its task's status (R173), a task
fault on a fault status other than ABORTED (R188), and the suspect counter on CHK (R460). -/
def State.retire (s : State) (t : Nat) (c : QCmd) (st : Status) (src : FaultSource) : State :=
  let s := if c.hdr.sigEn && !st.isFault then s.incEv t c.hdr.sigEv else s
  let s := s.taskStatus t c.cid st
  let s := if st.isFault && st != .aborted then
      match (s.tile t).bankOf c.cid with
      | some i => s.taskFault t i st src c.pc
      | none => s
    else s
  if st = .chk then s.suspect t else s

/-- A task is discarded or aborted (R190): it issues nothing more, its unstarted commands are discarded, its commands
in flight are asked to stop at their boundaries; a preloaded task's bank is released and the task completes. A fault
that it had before ranks against ABORTED under R14. [log 149: DEDUCED] -/
def State.abortTask (s : State) (t cid : Nat) : State :=
  let x := s.tile t
  match x.bankOf cid with
  | none => s
  | some i =>
    let b := x.bank i
    if b.phase = .loading ∨ b.phase = .preloaded then
      (s.setTile t { x.setBank i Bank.reset with predBad := true }).finish cid .aborted
    else
      let b' := { b with aborted := true, worst := b.worst.merge .aborted
                         phase := if b.phase = .issuing then .ended else b.phase }
      let stopM := fun (m : MUnitSt) => match m.run with
        | some r => if r.cmd.cid = cid then { m with run := some { r with abortReq := true } } else m
        | none => m
      let x := (x.setBank i b').dropWaiting cid
      let x := if i = x.active then { x with issue := none, rep := none } else x
      let x := { x with f := stopM x.f, b0 := stopM x.b0, b1 := stopM x.b1
                        vrun := match x.vrun with
                          | some r => if r.cmd.cid = cid then some { r with abortReq := true } else some r
                          | none => none }
      s.setTile t x

end Sys2Proof.Machine
end

