-- ==== Sys2Proof/Machine/Path.lean ====
section
/-! DEFINITION. Who may reach register space, and the offsets a partition uses (R25, R30, R31, R374, R406, R440). -/
namespace Sys2Proof.Machine

/-! ### Offsets of a partition (R31) -/

/-- Index i of n resources of a partition in an array of step `st` that starts at `b`, for offset `o`: the whole-module
offset, none past the partition's share. -/
def shareOff (part b st n o : Nat) : Option Nat :=
  if (o - b) / st < n then some (o + part * n * st) else none

/-- The whole-module offset of an offset that a partition uses in Split mode (R31). The administration registers, the
interrupt routes and the MSI-X tables are each partition's own. [log 4: DEDUCED] [log 25: DESIGN CHOICE] -/
def splitOff (part o : Nat) : Option Nat :=
  if 0x3000000 ≤ o then shareOff part 0x3000000 64 131072 o
  else if 0x2000000 ≤ o then shareOff part 0x2000000 0x10000 64 o
  else if 0x1000000 ≤ o then shareOff part 0x1000000 0x10000 64 o
  else if 0x620000 ≤ o then some (o + adminBank part)
  else if 0x610000 ≤ o then shareOff part 0x610000 0x10 2048 o
  else if 0x600100 ≤ o ∧ o < 0x600140 then shareOff part 0x600100 0x20 1 o
  else if 0x600000 ≤ o then some (o + adminBank part)
  else if 0x500000 ≤ o then shareOff part 0x500000 0x10 32768 o
  else if 0x400000 ≤ o then shareOff part 0x400000 0x100 2048 o
  else if 0x90000 ≤ o ∧ o < 0xA0000 then shareOff part 0x90000 0x400 1 o
  else if 0x80000 ≤ o ∧ o < 0x90000 then shareOff part 0x80000 0x100 1 o
  else if 0x71000 ≤ o ∧ o < 0x80000 then shareOff part 0x71000 0x40 16 o
  else if 0x70100 ≤ o ∧ o < 0x71000 then shareOff part 0x70100 0x40 1 o
  else if 0x60000 ≤ o ∧ o < 0x70000 then shareOff part 0x60000 0x400 2 o
  else if 0x52000 ≤ o ∧ o < 0x54000 then shareOff part 0x52000 0x200 1 o
  else if 0x50000 ≤ o ∧ o < 0x52000 then shareOff part 0x50000 0x400 4 o
  else if 0x40000 ≤ o ∧ o < 0x50000 then shareOff part 0x40000 0x800 16 o
  else some o

/-- The whole-module offset of a partition's offset (R31). -/
def State.physOff (s : State) (part o : Nat) : Option Nat := if s.split then splitOff part o else some o

/-- The die that holds a register (R17, R448), in the numbering of R318; none for the always-on domain and for what
every die holds. -/
def regDie (o : Nat) : Option Nat :=
  let o := o % 0x10000000
  if 0x3000000 ≤ o then some (2 + (o - 0x3000000) / 0x800000)
  else if 0x1000000 ≤ o then some (o % 0x1000000 / 0x10000 / 64 % 2)
  else if 0x610000 ≤ o ∧ o < 0x620000 then some ((o - 0x610000) / 0x8000)
  else if 0x600000 ≤ o then none
  else if 0x500000 ≤ o then some (ctrDie ((o - 0x500000) / 0x10))
  else if 0x400000 ≤ o then some (queueDie ((o - 0x400000) / 0x100))
  else if 0x80000 ≤ o ∧ o < 0x90000 then some (2 + (o - 0x80000) / 0x100)
  else if 0x71000 ≤ o ∧ o < 0x80000 then some (2 + (o - 0x71000) / 0x400)
  else if 0x70100 ≤ o ∧ o < 0x71000 then some (2 + (o - 0x70100) / 0x40)
  else if 0x60000 ≤ o ∧ o < 0x70000 then some (2 + (o - 0x60000) / 0x800)
  else if 0x52000 ≤ o ∧ o < 0x54000 then some ((o - 0x52000) / 0x200)
  else if 0x50000 ≤ o ∧ o < 0x52000 then some ((o - 0x50000) / 0x1000)
  else if 0x40000 ≤ o ∧ o < 0x50000 then some ((o - 0x40000) / 0x8000)
  else if 0x1000 ≤ o ∧ o < 0x1400 then some ((o - 0x1000) / 0x100)
  else none

/-- Whether a register can be reached: its die is in service. [log 97: DEDUCED] -/
def State.regAlive (s : State) (o : Nat) : Bool :=
  match regDie o with
  | some d => !s.dieLost d
  | none => true

/-- The status of a request from a die to register space: the registers of a lost die answer DIE_LOST (R447), but for
queue and counter registers, which read 0 and ignore writes (R448). The mailboxes lie in the always-on domain of ND0, which a
request reaches over the seams to ND0 (R411). [log 97: DEDUCED] [log 100: DEDUCED] -/
def State.regReach (s : State) (die part off : Nat) : Status :=
  let met := fun d => if s.pathLost die d then Status.dieLost else if s.pathDown die d then .bus else .ok
  match s.physOff part off with
  | none => .ok
  | some o =>
    if 0x400000 ≤ o ∧ o < 0x600000 then .ok
    else if 0x90000 ≤ o ∧ o < 0x90800 then met 2
    else match regDie o with
      | some d => met d
      | none => .ok

/-! ### The kernel path and the other paths (R30, R374, R410, R439, R440) -/

/-- Whether a host port serves requests: released, with its clock, on a network die in service. -/
def State.portServes (s : State) (p : Nat) : Bool :=
  (s.port p).released && !s.dieLost (2 + p) && !s.domainLostAt (18 + p)

/-- The partition whose kernel path a host access is: BAR0 of the PF of the owning or of the partition's port, in
normal service. -/
def State.kernelPath (s : State) (path : Path) : Option Nat :=
  match path with
  | .bar0 p fn =>
    if fn.val = 0 ∧ s.mode = .running ∧ s.portServes p ∧ s.ownsParts p then some (s.portPart p) else none
  | .bar4 _ => none

/-- The partition and the function of a VF's access (R410). -/
def State.vfPath (s : State) (path : Path) : Option (Nat × Nat) :=
  match path with
  | .bar0 p fn =>
    if fn.val ≠ 0 ∧ s.mode = .running ∧ s.portServes p ∧ s.ownsParts p then some (s.portPart p, fn.val) else none
  | .bar4 _ => none

/-- The network die of the port by which a host access enters. -/
def pathDie : Path → Nat
  | .bar0 p _ => 2 + p
  | .bar4 p => 2 + p

/-- The whole-module offset that a kernel-path write of a partition's offset reaches, while its die is in service and the
path to it (R447). -/
def State.kernelOff (s : State) (path : Path) (o : Nat) : Option Nat :=
  match s.kernelPath path with
  | some part => match s.physOff part o with
    | some o' => if s.regAlive o' && s.regReach (pathDie path) part o == .ok then some o' else none
    | none => none
  | none => none

/-- A kernel-path write: the action on the whole-module offset, or nothing where the path does not reach it. -/
def State.kernelWrite (s : State) (path : Path) (o : Nat) (act : Nat → State → State) : State :=
  match s.kernelOff path o with
  | some o' => act o' s
  | none => s

/-- A queue's state (R378): 0 FREE, 1 ACTIVE, 2 DESTROYING, 3 DESTROYED. -/
def State.queueState (s : State) (q : Nat) : Nat := field (s.reg (queueReg q 0x20)) 1 0

/-- Whether a queue belongs to a VF of its partition (R379). -/
def State.vfQueue (s : State) (fn q : Nat) : Bool :=
  s.queueState q != 0 && field (s.reg (queueReg q 0)) 13 9 == fn

/-- The whole-module number of a partition's queue; none beyond the partition (R31, R378). -/
def State.physQueue (s : State) (part q : Nat) : Option Nat :=
  if !s.split then some q else if q < 2048 then some (q + part * 2048) else none

/-- The queue that a host access to queue page registers reaches (R407, R410), and whether the access is the kernel
path: the PF reaches every queue, a VF the queues that belong to it. -/
def State.queuePath (s : State) (path : Path) (q : Nat) : Option (Nat × Bool) :=
  match s.kernelPath path with
  | some part => match s.physQueue part q with
    | some q' => if s.dieLost (queueDie q') then none else some (q', true)
    | none => none
  | none => match s.vfPath path with
    | some (part, fn) => match s.physQueue part q with
      | some q' => if s.vfQueue fn q' && !s.dieLost (queueDie q') then some (q', false) else none
      | none => none
    | none => none

end Sys2Proof.Machine
end

