-- ==== Sys2Proof/Machine/Front.lean ====
section
/-! DEFINITION. Engines and the turns of their front ends: the queues bound to an engine and the two graph inputs are
served in round robin (R314, R381, R385, R403, R440, R470). -/
namespace Sys2Proof.Machine

/-! ### Engines (R381) -/

/-- The whole-module number of the engine that a partition names; none outside the partition. -/
def State.physEngine (s : State) (part e : Nat) : Option Nat :=
  if !s.split then (if e < 164 then some e else none)
  else if e < 64 then some (e + 64 * part)
  else if 128 ≤ e ∧ e < 144 then some (e + 16 * part)
  else if e = 160 ∨ e = 162 then some (e + part)
  else none

/-- The die of an engine. -/
def engineDie (e : Nat) : Nat :=
  if e < 128 then e / 64 else if e < 160 then (e - 128) / 16 else if e < 162 then e - 158 else if e < 164 then e - 162 else 2

/-- The number Flint takes as engine of queue 0 in recovery mode (R424): the model's own. -/
def flintEngine : Nat := 200

/-- The engine that serves a queue. -/
def State.queueEngine (s : State) (q : Nat) : Option Nat :=
  if s.mode = .recovery then (if q = 0 then some flintEngine else none)
  else s.physEngine (s.queuePart q) (field (s.reg (queueReg q 0)) 7 0)

/-! ### Commands of queues and graph nodes -/

/-- Commands fetched from a queue. -/
def State.queueCmds (s : State) (q : Nat) : List Cmd :=
  s.cmds.filter fun c => match c.origin with
    | .queue p _ => p == q
    | .node _ _ => false

/-- Whether a command is a node of a graph launch. -/
def Cmd.isNode (c : Cmd) : Bool :=
  match c.origin with
  | .node _ _ => true
  | .queue _ _ => false

/-- A launch of a graph. -/
def State.glaunch? (s : State) (id : Nat) : Option GLaunch := s.glaunches.find? fun g => g.id == id

/-- The graph engine that posted a node; of a queue's command, its engine. -/
def State.nodeEngine (s : State) (c : Cmd) : Nat :=
  match c.origin with
  | .node l _ => match s.glaunch? l with
    | some g => g.engine
    | none => 0
  | .queue _ _ => c.engine

/-- The nodes in the input of an engine that the graph engine of a compute die feeds, oldest first (R403). -/
def State.inputNodes (s : State) (e d : Nat) : List Cmd :=
  s.cmds.filter fun c => c.isNode && c.phase == .passed && c.engine == e && s.nodeEngine c == 162 + d

/-! ### Turns (R314, R385, R403) -/

/-- Whether the front ends serve queues: in normal service, and in recovery mode queue 0 (R440). -/
def State.serving (s : State) : Bool := s.mode == .running || s.mode == .recovery

/-- Whether a proof-pack run holds an engine's front end: its queues are not fetched, and nodes wait at its inputs
(R470). -/
def State.frontHeld (s : State) (e : Nat) : Bool := decide (e < 128) && (s.tile e).ppHold

/-- Whether the buffer of the front end has room: in recovery mode it prefetches up to 64 commands (R385, R424). -/
def State.bufferRoom (s : State) (q : Nat) : Bool := s.mode != .recovery || decide ((s.queueCmds q).length < 64)

/-- Whether a queue has a ready command: ACTIVE, not halted, an entry posted, no head waiting (R314, R383, R384, R387). -/
def State.fetchReady (s : State) (q : Nat) : Bool :=
  s.serving && s.queueState q == 1 && !s.dieLost (queueDie q) && !flag (s.reg (queueReg q 0x20)) 8 &&
    s.reg (queueReg q 0x10) != s.reg (queueReg q 0x14) &&
    !((s.queueCmds q).any fun c => c.phase == .waiting) && s.bufferRoom q

/-- The ACTIVE queues, in ascending number. -/
def State.activeQueues (s : State) : List Nat :=
  (s.regs.filter fun (e : Nat × Word) => decide (0x400000 ≤ e.1) && decide (e.1 < 0x500000) && e.1 % 0x100 == 0x20 &&
    field e.2 1 0 == 1).map fun (e : Nat × Word) => (e.1 - 0x400000) / 0x100

/-- The number of the input that the graph engine of a compute die feeds, among the queues of a front end (R403). -/
def graphInput (d : Nat) : Nat := 4096 + d

/-- What an engine's front end could serve now, by number: its queues, then its graph inputs. -/
def State.readySources (s : State) (e : Nat) : List Nat :=
  (s.activeQueues.filter fun q => s.queueEngine q == some e && s.fetchReady q) ++
    ([0, 1].filter fun d => !(s.inputNodes e d).isEmpty).map graphInput

/-- The source whose turn comes at an engine's front end: the next ready one after that served last, in round robin. -/
def State.turnOf (s : State) (e : Nat) : Option Nat :=
  let last := tget (fun _ => 0) s.qTurn e
  let l := s.readySources e
  if s.frontHeld e then none else firstSome (l.find? fun q => decide (last ≤ q)) l.head?

/-- An engine's front end has served a source. -/
def State.turnTaken (s : State) (e q : Nat) : State := { s with qTurn := tset (fun _ => 0) s.qTurn e (q + 1) }

/-- Whether a command that was passed to its engine may start there: a node when its input has its turn and it is the
oldest in it (R403). -/
def State.startTurn (s : State) (c : Cmd) : Bool :=
  !c.isNode || (s.turnOf c.engine == some (graphInput (s.nodeEngine c - 162)) &&
    ((s.inputNodes c.engine (s.nodeEngine c - 162)).head?.map fun d => d.cid) == some c.cid)

/-- A command of an opcode that was passed to its engine, has not started there, and whose turn has come. -/
def State.passed (s : State) (cid opc : Nat) : Option Cmd :=
  match s.cmd? cid with
  | some c => if c.phase = .passed ∧ c.opc = opc ∧ s.startTurn c = true then some c else none
  | none => none

/-- The front end has taken a command: a node has used the turn of its input. -/
def State.taken (s : State) (c : Cmd) : State :=
  if c.isNode then s.turnTaken c.engine (graphInput (s.nodeEngine c - 162)) else s

end Sys2Proof.Machine
end

