-- ==== Sys2Proof/Machine/Stylus.lean ====
section
/-! DEFINITION. Bundle issue by the Stylus tile processor and the operations of every slot (R163 to R169, R193 to
R216). A bundle's slots act together in hardware; here each slot is a command, and the slots of one issue share the
registers that the issue read (log 7). -/
namespace Sys2Proof.Machine

/-! ### Fetch (R183, R184, R198) -/

/-- Bundle i of a tile's instruction memory (R183, R193). -/
def State.bundleAt (s : State) (t i : Nat) : List Byte := s.bytes (imemBase t + 64 * (i % 1024)) 64

/-- The eight slots of a bundle (R193). -/
def slotsOf (bs : List Byte) : List Word := (List.range 8).map fun n => BitVec.ofNat 64 (bytesN bs (8 * n + 7) (8 * n))

/-- The words of the bundle whose issue is open, or that REP repeats, or that stands at the active bank's PC.
[log 8: DESIGN CHOICE] -/
def State.nextWords (s : State) (t : Nat) : List Word :=
  let x := s.tile t
  match x.issue with
  | some i => i.words
  | none => match x.rep with
    | some r => r.words
    | none => slotsOf (s.bundleAt t x.cur.pc.toNat)

/-- One read of a bundle or of a plate bundle: the pin range of R184, then the error-correcting code of R183. -/
def State.imemRead (s : State) (t : Nat) (b : Bank) (i : Nat) : Status × State :=
  let a := imemBase t + 64 * (i % 1024)
  if !b.pins (i % 1024) then (.bounds, s)
  else match s.eccAt a with
    | .clean => (.ok, s)
    | .corrected => (.ok, (s.setEcc a .clean).count (tileBase t + 0x18) 1)
    | .uncorrectable => (.memUe, s)

/-- The fetch of the bundle at the active bank's PC with every plate it names (R183, R184, R198). -/
def State.fetch (s : State) (t : Nat) : Status × State :=
  let b := (s.tile t).cur
  let ws := slotsOf (s.bundleAt t b.pc.toNat)
  let (st, s) := s.imemRead t b b.pc.toNat
  if st != .ok then (st, s)
  else ([4, 5, 6].flatMap fun n => plateBundles n (slotOf ws n)).foldl
    (fun (st, s) i => let (st', s) := s.imemRead t b i; (st.merge st', s)) (.ok, s)

/-- The plates of a bundle's slots, as bytes (R198). -/
def State.platesOf (s : State) (t : Nat) (ws : List Word) : List (Nat × List Byte) :=
  [4, 5, 6].map fun n => (n, (plateBundles n (slotOf ws n)).flatMap (s.bundleAt t))

/-- The plate of a slot among captured ones. -/
def plateAt (ps : List (Nat × List Byte)) (n : Nat) : List Byte :=
  match ps.find? fun p => p.1 == n with
  | some p => p.2
  | none => []

/-! ### What each slot of a bundle does (R194 to R196) -/

/-- The slots of one issue: those that act, and those that are discarded with their reasons. -/
structure Slots where
  acting  : List Nat
  dropped : List (Nat × Status)
  written : List (Nat × Nat)
  deriving DecidableEq, Repr

/-- One slot checked after the lower ones: empty, false, discarded, or acting (R194 to R196). -/
def slotCheck (kernel allFwd first : Bool) (r : RegView) (ws : List Word) (ps : List (Nat × List Byte))
    (k : Slots) (n : Nat) : Slots :=
  let w := slotOf ws n
  if 1 ≤ slotPred w ∧ slotPred w ≤ 7 then { k with dropped := k.dropped ++ [(n, .format)] }
  else if w = 0 ∨ (n = 0 ∧ first = false) ∨ r.predTrue (slotPred w) = false then k
  else match wordDiscard kernel n w with
    | some st => { k with dropped := k.dropped ++ [(n, st)] }
    | none =>
      if comboReserved allFwd r n w (plateAt ps n) || (slotWrites n w).any k.written.contains then
        { k with dropped := k.dropped ++ [(n, .format)] }
      else { k with acting := k.acting ++ [n], written := k.written ++ slotWrites n w }

/-- The slots of one issue of a bundle. [log 33: DEDUCED] -/
def slotsCheck (kernel allFwd first : Bool) (r : RegView) (ws : List Word) (ps : List (Nat × List Byte)) : Slots :=
  (List.range 8).foldl (slotCheck kernel allFwd first r ws ps) ⟨[], [], []⟩

/-- Entries of a slot's queue that are in use, and its capacity (R174). -/
def Tile.queueFull (x : Tile) (slot : Nat) (w : Word) : Bool :=
  match slot with
  | 4 => decide (256 ≤ x.f.queue.length)
  | 5 => if flag w 1 then decide (256 ≤ x.b1.queue.length) else decide (256 ≤ x.b0.queue.length)
  | 6 => decide (256 ≤ x.vq.length)
  | _ => decide (512 ≤ x.dm.length)

/-- Whether SYN.WAITL holds the bundle (R179). -/
def State.waitlHolds (s : State) (t : Nat) (r : RegView) (ws : List Word) (k : Slots) : Bool :=
  let w := slotOf ws 7
  k.acting.contains 7 && slotOpc w == 0x61 && !evReached (s.ev t (field w 50 47)) (eventValue r w)

/-- Whether a pending mode change holds the bundle (R160): its S5 slot carries a matrix command. -/
def State.modeHolds (s : State) (t : Nat) (r : RegView) (kernel : Bool) (ws : List Word) : Bool :=
  let w := slotOf ws 5
  flag (s.reg (tileBase t + 0x8300)) 1 && w != 0 && r.predTrue (slotPred w) && (wordDiscard kernel 5 w).isNone

/-- Whether a full queue holds the bundle (R174). -/
def Tile.queueHolds (x : Tile) (ws : List Word) (k : Slots) : Bool :=
  k.acting.any fun n => isQueued n (slotOpc (slotOf ws n)) && x.queueFull n (slotOf ws n)

/-- Discards of one issue counted and recorded: the highest-numbered one (R187, R195). -/
def State.recordDrops (s : State) (t pc : Nat) (d : List (Nat × Status)) : State :=
  match d.getLast? with
  | none => s
  | some (n, st) =>
    ((s.count (tileBase t + 0x10) d.length).putBit (tileBase t) 5 true).setReg (tileBase t + 0xC)
      (BitVec.ofNat 64 (pc + 1024 * n + 8192 * st.code))

/-- REP's count when the bundle's S0 slot carries an REP that issues (R169, R200). -/
def repCount (r : RegView) (ws : List Word) (k : Slots) : Option Nat :=
  if k.acting.contains 0 && slotOpc (slotOf ws 0) == 5 then some (countOf r (slotOf ws 0)) else none

/-! ### Issue -/

/-- Whether a tile's units work: power is on and the tile's die is not lost (R446). -/
def State.tileOn (s : State) (t : Nat) : Bool :=
  (match s.mode with | .off => false | .tripped => false | _ => true) && !s.dieLost (tileDie t)

/-- A register parity error (R458): a task fault with CHK; the bundle does not issue. -/
def State.parityFault (s : State) (t : Nat) : State :=
  let x := s.tile t
  ((s.checkFailed t 3 .parity 0).taskFault t x.active .chk .parity x.cur.pc.toNat).suspect t

/-- The issue of a bundle, or of one repeat, whose words and plates are at hand: REP 0, stalls, parity, discards, and
the snapshot that every slot reads (R164, R167, R169, R174, R179, R195). [log 31: DEDUCED] [log 32: DEDUCED] -/
def State.tryIssue (s : State) (t : Nat) (parity first : Bool) (left : Nat) (ws : List Word)
    (ps : List (Nat × List Byte)) : State :=
  let x := s.tile t
  let b := x.cur
  let r := b.view
  let k := slotsCheck b.kernel (flag (s.reg (tileBase t + 0x8300)) 2) first r ws ps
  if repCount r ws k = some 0 then
    if parity && slotReads 0 (slotOf ws 0) then s.parityFault t
    else s.onCur t fun b => { b with pc := b.pc + 1 }
  else if s.waitlHolds t r ws k || s.modeHolds t r b.kernel ws || x.queueHolds ws k then
    let s := if s.waitlHolds t r ws k then s.count64 (tileBase t + 0x50) 1 else s
    let s := if s.modeHolds t r b.kernel ws then s.count64 (tileBase t + 0x58) 1 else s
    if x.queueHolds ws k then s.count64 (tileBase t + 0x48) 1 else s
  else if parity && (List.range 8).any fun n => slotReads n (slotOf ws n) && slotOf ws n != 0 then s.parityFault t
  else
    let q := k.acting.filter fun n => isQueued n (slotOpc (slotOf ws n))
    let s := (s.recordDrops t b.pc.toNat k.dropped).count64 (tileBase t + 0x40) 1
    s.setTile t { x with
      nextSeq := x.nextSeq + q.length
      issue := some { words := ws, plates := ps, left := left, view := r, todo := k.acting, queued := q,
                      seqBase := x.nextSeq, marks := [], ending := false, nextPc := b.pc + 1 } }

/-- Opens the next issue of a tile: nothing while one is open or no task issues; a scalar access that waits for its
grant holds issue (R182); REP issues again what it captured; else the bundle is fetched (R169, R183, R198).
[log 7: DESIGN CHOICE] -/
def State.openIssue (s : State) (t : Nat) (parity : Bool) : State :=
  let x := s.tile t
  if x.issue.isSome || x.cur.phase != .issuing || !s.tileOn t then s
  else if x.scalar.isSome then s.count64 (tileBase t + 0x68) 1
  else match x.rep with
    | some r => s.tryIssue t parity false (r.left - 1) r.words r.plates
    | none =>
      let ws := slotsOf (s.bundleAt t x.cur.pc.toNat)
      let ps := s.platesOf t ws
      let (st, s) := s.fetch t
      if st = .ok then s.tryIssue t parity true 0 ws ps
      else s.taskFault t x.active st .fetch x.cur.pc.toNat

/-- AG.INC's marks at the end of an issue: aN + dN of the values the bundle read (R204). -/
def Bank.increment (b : Bank) (r : RegView) : List Nat → Bank
  | [] => b
  | n :: rest => (b.setA n (r.areg n + r.dreg n)).increment r rest

/-- Closes an issue whose slots have all acted: marks, the repeats left, the PC, END (R168, R169, R172, R204). -/
def State.closeIssue (s : State) (t : Nat) : State :=
  let x := s.tile t
  match x.issue with
  | none => s
  | some i =>
    if i.todo ≠ [] then s
    else
      let b := x.cur.increment i.view i.marks
      let b := if i.left = 0 then { b with pc := i.nextPc } else b
      let b := if i.ending ∧ b.phase = .issuing then { b with phase := .ended } else b
      s.setTile t { x.setBank x.active b with
        issue := none
        rep := if i.left = 0 ∨ b.phase ≠ .issuing then none else some ⟨i.left, i.words, i.plates⟩ }

/-- A slot acts: it leaves the issue's list, has its effect, and the issue closes when it was the last. -/
def State.slotAct (s : State) (t slot : Nat) (i : Issue) (act : State → State) : State :=
  (act (s.setTile t { s.tile t with issue := some { i with todo := i.todo.filter (· != slot) } })).closeIssue t

/-- A row of the table that is a slot operation: the next bundle of the tile carries it in the slot; the row opens
that bundle's issue if none is open, and its slot acts unless it is false, discarded, or has acted already.
[log 8: DESIGN CHOICE] -/
def State.slotRow (s : State) (t slot opc : Nat) (parity : Bool) (act : Issue → Word → State → State) : State :=
  if slotOpc (slotOf (s.nextWords t) slot) ≠ opc then s
  else
    let s := s.openIssue t parity
    match (s.tile t).issue with
    | none => s
    | some i =>
      if i.todo.contains slot then s.slotAct t slot i (act i (slotOf i.words slot)) else s.closeIssue t

/-- The open issue changed. -/
def State.onIssue (s : State) (t : Nat) (f : Issue → Issue) : State :=
  let x := s.tile t
  s.setTile t { x with issue := x.issue.map f }

/-- BUNDLE_NOP (R193): empty slots have no effect; a bundle none of whose slots acts issues all the same. -/
def execBundleNop (t : TileId) (parity : Bool) (s : State) : Host.Outcome State Fault Refusal :=
  .next ((s.openIssue t parity).closeIssue t)

/-! ### S0: control (R168, R169, R200, R201) -/

/-- END (R172, R200): the task ends its issue with this bundle. -/
def execEndTask (t : TileId) (parity : Bool) (s : State) : Host.Outcome State Fault Refusal :=
  .next (s.slotRow t 0 0x01 parity fun _ _ s => s.onIssue t fun i => { i with ending := true })

/-- BR (R200): pc = TARGET. -/
def execBr (t : TileId) (parity : Bool) (s : State) : Host.Outcome State Fault Refusal :=
  .next (s.slotRow t 0 0x02 parity fun _ w s => s.onIssue t fun i =>
    { i with nextPc := BitVec.ofNat 10 (field w 48 39) })

/-- LOOP.SET (R168, R200). -/
def execLoopSet (t : TileId) (parity : Bool) (s : State) : Host.Outcome State Fault Refusal :=
  .next (s.slotRow t 0 0x03 parity fun i w s =>
    if countOf i.view w = 0 then s.onIssue t fun i => { i with nextPc := BitVec.ofNat 10 (field w 48 39 + 1) }
    else s.onCur t fun b => b.setC (field w 51 49) (BitVec.ofNat 32 (countOf i.view w)))

/-- LOOP.END (R168, R200). -/
def execLoopEnd (t : TileId) (parity : Bool) (s : State) : Host.Outcome State Fault Refusal :=
  .next (s.slotRow t 0 0x04 parity fun i w s =>
    let n := field w 51 49
    let c := i.view.creg n
    if 1 < c.toNat then
      (s.onCur t fun b => b.setC n (c - 1)).onIssue t fun i => { i with nextPc := BitVec.ofNat 10 (field w 48 39) }
    else s.onCur t fun b => b.setC n 0)

/-- REP (R169, R200): the bundle issues n times; REP 0 issues nothing and moves to the next bundle. -/
def execRep (t : TileId) (parity : Bool) (s : State) : Host.Outcome State Fault Refusal :=
  .next (s.slotRow t 0 0x05 parity fun i w s => s.onIssue t fun j => { j with left := countOf i.view w - 1 })

/-- CMP.SET (R201): configures comparator kN from the next bundle on. -/
def execCmpSet (t : TileId) (parity : Bool) (s : State) : Host.Outcome State Fault Refusal :=
  .next (s.slotRow t 0 0x06 parity fun _ w s => s.onCur t fun b => b.setCmp (field w 51 50) (comparatorOf w))

/-- CNT.SET (R200). -/
def execCntSet (t : TileId) (parity : Bool) (s : State) : Host.Outcome State Fault Refusal :=
  .next (s.slotRow t 0 0x07 parity fun i w s =>
    s.onCur t fun b => b.setC (field w 51 49) (BitVec.ofNat 32 (countOf i.view w)))

/-! ### S1: the scalar ALU (R202) -/

/-- A slot of S1 that writes s[RD] with a function of s[RS1] and b. -/
def State.scalarRow (s : State) (t opc : Nat) (parity : Bool) (f : Word → Word → Word) : State :=
  s.slotRow t 1 opc parity fun i w s =>
    s.onCur t fun b => b.setS (field w 51 47) (f (i.view.sreg (field w 46 42)) (operandB i.view w))

/-- A slot of S1 that moves a value into s[RD]. -/
def State.moveRow (s : State) (t opc : Nat) (parity : Bool) (f : RegView → Word → Word) : State :=
  s.slotRow t 1 opc parity fun i w s => s.onCur t fun b => b.setS (field w 51 47) (f i.view w)

/-- SC.ADD: s[RS1] + b (R202). -/
def execScAdd (t : TileId) (parity : Bool) (s : State) : Host.Outcome State Fault Refusal :=
  .next (s.scalarRow t 0x10 parity fun a b => a + b)

/-- SC.SUB: s[RS1] − b (R202). -/
def execScSub (t : TileId) (parity : Bool) (s : State) : Host.Outcome State Fault Refusal :=
  .next (s.scalarRow t 0x11 parity fun a b => a - b)

/-- SC.MUL: the low 64 bits of s[RS1] × b (R202). -/
def execScMul (t : TileId) (parity : Bool) (s : State) : Host.Outcome State Fault Refusal :=
  .next (s.scalarRow t 0x12 parity fun a b => a * b)

/-- SC.AND (R202). -/
def execScAnd (t : TileId) (parity : Bool) (s : State) : Host.Outcome State Fault Refusal :=
  .next (s.scalarRow t 0x13 parity fun a b => a &&& b)

/-- SC.OR (R202). -/
def execScOr (t : TileId) (parity : Bool) (s : State) : Host.Outcome State Fault Refusal :=
  .next (s.scalarRow t 0x14 parity fun a b => a ||| b)

/-- SC.XOR (R202). -/
def execScXor (t : TileId) (parity : Bool) (s : State) : Host.Outcome State Fault Refusal :=
  .next (s.scalarRow t 0x15 parity fun a b => a ^^^ b)

/-- SC.SHL: by b[5:0] (R202). -/
def execScShl (t : TileId) (parity : Bool) (s : State) : Host.Outcome State Fault Refusal :=
  .next (s.scalarRow t 0x16 parity fun a b => a <<< (b.toNat % 64))

/-- SC.SHR: logically, by b[5:0] (R202). -/
def execScShr (t : TileId) (parity : Bool) (s : State) : Host.Outcome State Fault Refusal :=
  .next (s.scalarRow t 0x17 parity fun a b => a >>> (b.toNat % 64))

/-- SC.SRA: arithmetically, by b[5:0] (R202). -/
def execScSra (t : TileId) (parity : Bool) (s : State) : Host.Outcome State Fault Refusal :=
  .next (s.scalarRow t 0x18 parity fun a b => a.sshiftRight (b.toNat % 64))

/-- SC.MIN: signed (R202). -/
def execScMin (t : TileId) (parity : Bool) (s : State) : Host.Outcome State Fault Refusal :=
  .next (s.scalarRow t 0x19 parity fun a b => if a.slt b then a else b)

/-- SC.MAX: signed (R202). -/
def execScMax (t : TileId) (parity : Bool) (s : State) : Host.Outcome State Fault Refusal :=
  .next (s.scalarRow t 0x1A parity fun a b => if a.slt b then b else a)

/-- SC.MINU: unsigned (R202). -/
def execScMinu (t : TileId) (parity : Bool) (s : State) : Host.Outcome State Fault Refusal :=
  .next (s.scalarRow t 0x1B parity fun a b => if a.ult b then a else b)

/-- SC.MAXU: unsigned (R202). -/
def execScMaxu (t : TileId) (parity : Bool) (s : State) : Host.Outcome State Fault Refusal :=
  .next (s.scalarRow t 0x1C parity fun a b => if a.ult b then b else a)

/-- SC.SLT: 1 if s[RS1] < b signed, else 0 (R202). -/
def execScSlt (t : TileId) (parity : Bool) (s : State) : Host.Outcome State Fault Refusal :=
  .next (s.scalarRow t 0x1D parity fun a b => if a.slt b then 1 else 0)

/-- SC.SLTU: 1 if s[RS1] < b unsigned, else 0 (R202). -/
def execScSltu (t : TileId) (parity : Bool) (s : State) : Host.Outcome State Fault Refusal :=
  .next (s.scalarRow t 0x1E parity fun a b => if a.ult b then 1 else 0)

/-- SC.MOVI: IMM sign-extended (R202). -/
def execScMovi (t : TileId) (parity : Bool) (s : State) : Host.Outcome State Fault Refusal :=
  .next (s.moveRow t 0x20 parity fun _ w => imm32 w)

/-- SC.MOVHI: IMM << 32, or s[RD][31:0] (R202). -/
def execScMovhi (t : TileId) (parity : Bool) (s : State) : Host.Outcome State Fault Refusal :=
  .next (s.moveRow t 0x21 parity fun r w =>
    BitVec.ofNat 64 (field w 31 0 * 2 ^ 32 + (r.sreg (field w 51 47)).toNat % 2 ^ 32))

/-- SC.MOVA: a[RS1], zero-extended (R202). -/
def execScMova (t : TileId) (parity : Bool) (s : State) : Host.Outcome State Fault Refusal :=
  .next (s.moveRow t 0x22 parity fun r w => (r.areg (field w 46 42)).setWidth 64)

/-- SC.MOVC: c[RS1], zero-extended (R202). -/
def execScMovc (t : TileId) (parity : Bool) (s : State) : Host.Outcome State Fault Refusal :=
  .next (s.moveRow t 0x23 parity fun r w => (r.creg (field w 46 42)).setWidth 64)

/-! ### S2 and S3: address generation (R203, R204) -/

/-- The slot of an address operation: S3 when `hi`, else S2. -/
def agSlot (hi : Bool) : Nat := if hi then 3 else 2

/-- IMM [46:0] sign-extended to 52 bits (R203). -/
def imm47 (w : Word) : Addr := (w.setWidth 47).signExtend 52

/-- AG.ADD (R203): a[AS] + s[ST][51:0] or IMM sign-extended, modulo 2^52. -/
def execAgAdd (t : TileId) (hi parity : Bool) (s : State) : Host.Outcome State Fault Refusal :=
  .next (s.slotRow t (agSlot hi) 0x20 parity fun i w s => s.onCur t fun b =>
    b.setA (field w 51 47) (i.view.areg (field w 46 42) +
      (if flag w 41 then (i.view.sreg (field w 40 36)).setWidth 52 else (w.setWidth 32).signExtend 52)))

/-- AG.SET (R203). -/
def execAgSet (t : TileId) (hi parity : Bool) (s : State) : Host.Outcome State Fault Refusal :=
  .next (s.slotRow t (agSlot hi) 0x21 parity fun _ w s => s.onCur t fun b => b.setA (field w 51 47) (imm47 w))

/-- AG.DSET (R203). -/
def execAgDset (t : TileId) (hi parity : Bool) (s : State) : Host.Outcome State Fault Refusal :=
  .next (s.slotRow t (agSlot hi) 0x22 parity fun _ w s => s.onCur t fun b => b.setD (field w 51 47) (imm47 w))

/-- AG.MOV (R203): s[SS][51:0]. -/
def execAgMov (t : TileId) (hi parity : Bool) (s : State) : Host.Outcome State Fault Refusal :=
  .next (s.slotRow t (agSlot hi) 0x23 parity fun i w s => s.onCur t fun b =>
    b.setA (field w 51 47) ((i.view.sreg (field w 46 42)).setWidth 52))

/-- AG.DMOV (R203): s[SS][51:0]. -/
def execAgDmov (t : TileId) (hi parity : Bool) (s : State) : Host.Outcome State Fault Refusal :=
  .next (s.slotRow t (agSlot hi) 0x24 parity fun i w s => s.onCur t fun b =>
    b.setD (field w 51 47) ((i.view.sreg (field w 46 42)).setWidth 52))

/-- AG.INC (R204): marks the registers of MASK for the increment at the end of the issue. -/
def execAgInc (t : TileId) (hi parity : Bool) (s : State) : Host.Outcome State Fault Refusal :=
  .next (s.slotRow t (agSlot hi) 0x25 parity fun _ w s => s.onIssue t fun i =>
    { i with marks := i.marks ++ (List.range 32).filter fun n => flag w n })

/-! ### S4 to S7: queued commands (R197, R205, R206, R211, R213, R215, R216) -/

/-- A command enters the queue its slot feeds (R174, R205). -/
def Tile.push (x : Tile) (slot : Nat) (w : Word) (c : QCmd) : Tile :=
  match slot with
  | 4 => { x with f := { x.f with queue := x.f.queue ++ [c] } }
  | 5 => if flag w 1 then { x with b1 := { x.b1 with queue := x.b1.queue ++ [c] } }
         else { x with b0 := { x.b0 with queue := x.b0.queue ++ [c] } }
  | 6 => { x with vq := x.vq ++ [c] }
  | _ => { x with dm := x.dm ++ [c] }

/-- The command of a queued slot of an issue: sequence numbers in slot order (R174), operands of the issue (R165). -/
def queuedCmd (i : Issue) (b : Bank) (slot : Nat) (w : Word) : QCmd :=
  { seq := i.seqBase + i.queued.idxOf slot, cid := b.cid, pc := b.pc.toNat, hdr := headerOf i.view w
    work := workOf i.view slot w (plateAt i.plates slot) }

/-- A queued slot operation: its command enters its queue, unless a fault or an abort of the task discards it (R189). -/
def State.queuedRow (s : State) (t slot opc : Nat) (parity : Bool) : State :=
  s.slotRow t slot opc parity fun i w s =>
    let x := s.tile t
    if x.cur.faulted || x.cur.aborted then s else s.setTile t (x.push slot w (queuedCmd i x.cur slot w))

/-- The slot of a matrix operation: S5 when `hi`, else S4. -/
def mmSlot (hi : Bool) : Nat := if hi then 5 else 4

/-- MM.F (R205): its command enters F, or the B unit that UNIT names. -/
def execMmF (t : TileId) (hi parity : Bool) (s : State) : Host.Outcome State Fault Refusal :=
  .next (s.queuedRow t (mmSlot hi) 0x80 parity)

/-- MM.DX (R205): its command enters the B unit that UNIT names. -/
def execMmDx (t : TileId) (parity : Bool) (s : State) : Host.Outcome State Fault Refusal :=
  .next (s.queuedRow t 5 0x81 parity)

/-- MM.DW (R205): its command enters the B unit that UNIT names. -/
def execMmDw (t : TileId) (parity : Bool) (s : State) : Host.Outcome State Fault Refusal :=
  .next (s.queuedRow t 5 0x82 parity)

/-- ACC.INIT (R205, R206): its command enters F, or the B unit that UNIT names. -/
def execAccInit (t : TileId) (hi parity : Bool) (s : State) : Host.Outcome State Fault Refusal :=
  .next (s.queuedRow t (mmSlot hi) 0x88 parity)

/-- ACC.DRAIN (R205, R207): its command enters F, or the B unit that UNIT names. -/
def execAccDrain (t : TileId) (hi parity : Bool) (s : State) : Host.Outcome State Fault Refusal :=
  .next (s.queuedRow t (mmSlot hi) 0x89 parity)

/-- VOP.CVT (R211): its command enters queue V. -/
def execVopCvt (t : TileId) (parity : Bool) (s : State) : Host.Outcome State Fault Refusal :=
  .next (s.queuedRow t 6 0x40 parity)

/-- VOP.ADD (R211): its command enters queue V. -/
def execVopAdd (t : TileId) (parity : Bool) (s : State) : Host.Outcome State Fault Refusal :=
  .next (s.queuedRow t 6 0x41 parity)

/-- VOP.MUL (R211): its command enters queue V. -/
def execVopMul (t : TileId) (parity : Bool) (s : State) : Host.Outcome State Fault Refusal :=
  .next (s.queuedRow t 6 0x42 parity)

/-- VOP.FMA (R211): its command enters queue V. -/
def execVopFma (t : TileId) (parity : Bool) (s : State) : Host.Outcome State Fault Refusal :=
  .next (s.queuedRow t 6 0x43 parity)

/-- VOP.AXPY (R211): its command enters queue V. -/
def execVopAxpy (t : TileId) (parity : Bool) (s : State) : Host.Outcome State Fault Refusal :=
  .next (s.queuedRow t 6 0x44 parity)

/-- VOP.MAX (R211): its command enters queue V. -/
def execVopMax (t : TileId) (parity : Bool) (s : State) : Host.Outcome State Fault Refusal :=
  .next (s.queuedRow t 6 0x45 parity)

/-- VOP.MIN (R211): its command enters queue V. -/
def execVopMin (t : TileId) (parity : Bool) (s : State) : Host.Outcome State Fault Refusal :=
  .next (s.queuedRow t 6 0x46 parity)

/-- VOP.STEN (R211): its command enters queue V. -/
def execVopSten (t : TileId) (parity : Bool) (s : State) : Host.Outcome State Fault Refusal :=
  .next (s.queuedRow t 6 0x47 parity)

/-- VOP.DSTEN (R211): its command enters queue V. -/
def execVopDsten (t : TileId) (parity : Bool) (s : State) : Host.Outcome State Fault Refusal :=
  .next (s.queuedRow t 6 0x48 parity)

/-- VOP.RSUM (R211): its command enters queue V. -/
def execVopRsum (t : TileId) (parity : Bool) (s : State) : Host.Outcome State Fault Refusal :=
  .next (s.queuedRow t 6 0x50 parity)

/-- VOP.RMAX (R211): its command enters queue V. -/
def execVopRmax (t : TileId) (parity : Bool) (s : State) : Host.Outcome State Fault Refusal :=
  .next (s.queuedRow t 6 0x51 parity)

/-- VOP.SENT (R211): its command enters queue V. -/
def execVopSent (t : TileId) (parity : Bool) (s : State) : Host.Outcome State Fault Refusal :=
  .next (s.queuedRow t 6 0x52 parity)

/-- VOP.TLOAD (R211): its command enters queue V. -/
def execVopTload (t : TileId) (parity : Bool) (s : State) : Host.Outcome State Fault Refusal :=
  .next (s.queuedRow t 6 0x58 parity)

/-- DMA.XFER (R215): its command enters queue DM. -/
def execDmaXfer (t : TileId) (parity : Bool) (s : State) : Host.Outcome State Fault Refusal :=
  .next (s.queuedRow t 7 0x30 parity)

/-- SYN.SIGNAL (R216): its command enters queue DM. -/
def execSynSignal (t : TileId) (parity : Bool) (s : State) : Host.Outcome State Fault Refusal :=
  .next (s.queuedRow t 7 0x68 parity)

/-- SYN.WAITGE (R216): its command enters queue DM. -/
def execSynWaitge (t : TileId) (parity : Bool) (s : State) : Host.Outcome State Fault Refusal :=
  .next (s.queuedRow t 7 0x69 parity)

/-- SYN.CSET (R216), kernel-only: its command enters queue DM. -/
def execSynCset (t : TileId) (parity : Bool) (s : State) : Host.Outcome State Fault Refusal :=
  .next (s.queuedRow t 7 0xC0 parity)

/-! ### S7: direct operations (R182, R214) -/

/-- A scalar access of DMA.LDS or DMA.STS: outside the scratchpad or misaligned it is a task fault; otherwise it is
presented on the scalar port, where SCALAR_GRANT completes it (R182, R214). -/
def State.scalarAccess (s : State) (t : Nat) (i : Issue) (w : Word) (load : Bool) : State :=
  let x := s.tile t
  let off := ((i.view.areg (field w 44 40)).toNat + field w 23 0) % 2 ^ 24
  let size := 2 ^ field w 51 50
  if 0x600000 < off + size ∨ off % size ≠ 0 then s.taskFault t x.active .bounds .scalar x.cur.pc.toNat
  else
    let acc : ScalarAcc := { bank := x.active, load := load, off := off, size := size, sreg := field w 49 45,
                             data := i.view.sreg (field w 49 45), pc := x.cur.pc.toNat }
    s.setTile t { x with scalar := some acc }

/-- DMA.LDS (R182, R214). -/
def execDmaLds (t : TileId) (parity : Bool) (s : State) : Host.Outcome State Fault Refusal :=
  .next (s.slotRow t 7 0x20 parity fun i w s => s.scalarAccess t i w true)

/-- DMA.STS (R182, R214). -/
def execDmaSts (t : TileId) (parity : Bool) (s : State) : Host.Outcome State Fault Refusal :=
  .next (s.slotRow t 7 0x21 parity fun i w s => s.scalarAccess t i w false)

/-- SYN.EVSET (R178, R214): sets a local event counter. -/
def execSynEvset (t : TileId) (parity : Bool) (s : State) : Host.Outcome State Fault Refusal :=
  .next (s.slotRow t 7 0x60 parity fun i w s => s.setEv t (field w 50 47) (eventValue i.view w))

/-- SYN.WAITL (R179, R214): holds the issue of its bundle until the wait is met; then the slot has no other effect. -/
def execSynWaitl (t : TileId) (parity : Bool) (s : State) : Host.Outcome State Fault Refusal :=
  .next (s.slotRow t 7 0x61 parity fun _ _ s => s)

end Sys2Proof.Machine
end

