-- ==== Sys2Proof/Machine/Scratch.lean ====
section
/-! DEFINITION. The scratchpad: error-correcting code, ports, accumulator tiles in memory and the A128 adder
(R92, R93, R105, R182, R241 to R248). -/
namespace Sys2Proof.Machine

/-! ### Ports (R243) -/

/-- The number of port i of a matrix unit in the table of R243: 0 stationary load, 1 stream load and anchor scan, 2 and 3
the fill's element and header paths, 4 and 5 the spill's, 6 the drain output (R114). -/
def muPort (u : MUnit) (i : Nat) : Nat := 7 * munitNum u + i
/-- The z port of B0. -/
def zPort : Nat := 21
/-- Port i of the vector unit: 0 X, 1 Y, 2 D as read, 3 D as written, 4 the accumulator header (R217). -/
def vecPort (i : Nat) : Nat := 22 + i
/-- The port of user DMA channel n. -/
def dmaPort (n : Nat) : Nat := 27 + n
/-- The fabric inbound port: writes and read requests from outside the tile. -/
def inPort : Nat := 31
/-- The fabric outbound port: read data that leaves the tile. -/
def outPort : Nat := 32
/-- The A128 adder's ports: 0 read, 1 write. -/
def adderPort (i : Nat) : Nat := 33 + i
/-- Stylus' scalar port. -/
def scalarPort : Nat := 35

/-- Words of 16 bytes that a port of the table of R243 presents in one cycle. -/
def portWords (n : Nat) : Nat :=
  if n < 21 then
    match n % 7 with
    | 0 => 16 | 1 => 32 | 2 => 64 | 3 => 68 | 4 => 64 | 5 => 68 | _ => 16
  else match n with
    | 21 => 16 | 22 => 64 | 26 => 4 | 27 | 28 | 29 | 30 => 16 | 33 | 34 => 16 | 35 => 1 | _ => 32

/-- Whether no word of a request of these ports still waits for its grant: a request completes with its last word, and
the access behind it waits until then (R243). -/
def State.portFree (s : State) (t : Nat) (ports : List Nat) : Bool :=
  !(s.tile t).spWait.any fun w => ports.contains w.port

/-! ### Accesses (R244, R245) -/

/-- Bytes of a scratchpad (R241). -/
def spSize : Nat := 0x600000

/-- The error-correcting code's part of a read of n scratchpad bytes by one of the tile's engines: corrected words are
written back and counted, an uncorrectable word is counted and recorded (R245). True: the read met one. -/
def State.spCheck (s : State) (t off n : Nat) : Bool × State :=
  let a := spBase t + off
  let o := tileBase t + 0x2000
  (s.ecc.filter fun e => decide (a < e.1 + 16) && decide (e.1 < a + n)).foldl (fun (bad, s) e =>
    match e.2 with
    | .clean => (bad, s)
    | .corrected => (bad, (s.setEcc e.1 .clean).count (o + 4) 1)
    | .uncorrectable =>
      (true, ((s.count (o + 8) 1).setReg (o + 0xC) (BitVec.ofNat 64 (e.1 - spBase t))).putBit o 0 true)) (false, s)

/-- The same over several runs of bytes. -/
def State.spCheckAll (s : State) (t : Nat) (runs : List (Nat × Nat)) : Bool × State :=
  runs.foldl (fun (bad, s) r => let (b, s) := s.spCheck t r.1 r.2; (bad || b, s)) (false, s)

/-- Bytes of a tile's scratchpad. -/
def State.sp (s : State) (t off n : Nat) : List Byte := s.bytes (spBase t + off) n

/-- A number in a tile's scratchpad. -/
def State.spNum (s : State) (t off n : Nat) : Nat := leNat (s.sp t off n)

/-- A write of bytes into a tile's scratchpad; a word stays uncorrectable until a write covers it whole (R245). -/
def State.spWrite (s : State) (t off : Nat) (bs : List Byte) : State := s.storeClean (spBase t + off) bs

/-! ### Elements in memory (R57, R117) -/

/-- The byte and the bit of element `pos` of a run of elements of `bits` bits. -/
def elemByte (bits pos : Nat) : Nat := pos * bits / 8

/-- Bytes that n elements of a run cover (R57). -/
def elemBytes (bits n : Nat) : Nat := (n * bits + 7) / 8

/-- The code of element `pos` of the run at an offset. -/
def State.spElem (s : State) (t base bits pos : Nat) : Nat :=
  if bits < 8 then (s.spNum t (base + elemByte bits pos) 1 >>> (pos * bits % 8)) % 2 ^ bits
  else s.spNum t (base + elemByte bits pos) (bits / 8)

/-- One element written into the run at an offset. Codes narrower than a byte fill it from the low end, and the
positions above stay code 0 until their own element is written (R57). -/
def State.spPutElem (s : State) (t base bits pos code : Nat) : State :=
  let o := base + elemByte bits pos
  if bits < 8 then
    let sh := pos * bits % 8
    s.spWrite t o [BitVec.ofNat 8 (s.spNum t o 1 % 2 ^ sh + code * 2 ^ sh)]
  else s.spWrite t o (natLe (bits / 8) code)

/-- Codes packed into bytes (R57). -/
def packCodes (bits : Nat) (cs : List Nat) : List Byte :=
  natLe (elemBytes bits cs.length) (cs.foldr (fun c acc => c + acc * 2 ^ bits) 0)

/-! ### Accumulator tiles (R91 to R94, R105) -/

/-- A tile header (R93). -/
structure TileHdr where
  anchor   : Int
  anchored : Bool
  sat      : Bool
  inexact  : Bool
  nan      : Bool
  chk      : Bool
  fault    : Nat
  sentinel : BitVec 32
  deriving DecidableEq, Repr

/-- A header as read; reserved bytes are ignored (R93). -/
def hdrOf (bs : List Byte) : TileHdr :=
  let f := byteAt bs 2
  { anchor := signed 16 (bytesN bs 1 0), anchored := bitN f 0, sat := bitN f 1, inexact := bitN f 2, nan := bitN f 3
    chk := bitN f 4, fault := byteAt bs 3, sentinel := BitVec.ofNat 32 (bytesN bs 7 4) }

/-- A flag as a number. -/
def bit1 (b : Bool) (n : Nat) : Nat := if b then 2 ^ n else 0

/-- A header's 64 bytes (R93). -/
def hdrBytes (h : TileHdr) : List Byte :=
  natLe 64 (unsigned 16 h.anchor + 65536 * (bit1 h.anchored 0 + bit1 h.sat 1 + bit1 h.inexact 2 + bit1 h.nan 3 +
    bit1 h.chk 4) + 2 ^ 24 * (h.fault % 256) + 2 ^ 32 * h.sentinel.toNat)

/-- A fresh header (R94). -/
def hdrFresh : TileHdr := ⟨0, false, false, false, false, false, 0, 0⟩

/-- Tag addition (R90). -/
def tagAdd (a b : Nat) : Nat := if a = 0 then b else if b = 0 then a else if a = b then a else 3

/-- The clamp of R100: the value and whether it saturated. -/
def clamp128 (v : Int) : Int × Bool :=
  if 2 ^ 127 ≤ v then (2 ^ 127 - 1, true) else if v ≤ -(2 ^ 127) then (-(2 ^ 127 - 1), true) else (v, false)

/-- Element j = 64r + c of the tile whose bytes `rd` gives (R92). -/
def tileElem (rd : Nat → Byte) (j : Nat) : Int :=
  signed 128 (leNat ((List.range 16).map fun i => rd (16 * j + i)))

/-- Its tag (R92). -/
def tileTag (rd : Nat → Byte) (j : Nat) : Nat := bitsN (rd (0x10000 + j / 4)).toNat (2 * (j % 4) + 1) (2 * (j % 4))

/-- The header of the tile whose bytes `rd` gives. -/
def tileHdr (rd : Nat → Byte) : TileHdr := hdrOf ((List.range 8).map fun i => rd (0x10400 + i))

/-- What a tile add changes: elements and tag bytes to write, the header to write, and its own status. -/
structure AddOut where
  writes : List (Nat × List Byte)
  header : List Byte
  status : Status
  deriving DecidableEq, Repr

/-- The element of one tile add: the sum, and whether it was rounded and saturated (R105). -/
def addElem (d s : Int) (shift : Int) : Int × Bool × Bool :=
  let (n, ix) := placeRne s shift
  let (v, sat) := clamp128 (d + n)
  (v, ix, sat)

/-- The tile add of R105 over the bytes of both tiles; NAN is sticky (R93). -/
def tileAdd (dst src : Nat → Byte) : AddOut :=
  let hd := tileHdr dst
  let hs := tileHdr src
  let hd := if !hd.anchored && hs.anchored then { hd with anchor := hs.anchor, anchored := true } else hd
  let es := (List.range 4096).map fun j => (j, addElem (tileElem dst j) (tileElem src j) (hs.anchor - hd.anchor))
  let ix := es.any fun e => e.2.2.1
  let sat := es.any fun e => e.2.2.2
  let tags := (List.range 1024).map fun i => (i, (List.range 4).foldr (fun k acc =>
    tagAdd (tileTag dst (4 * i + k)) (tileTag src (4 * i + k)) + 4 * acc) 0)
  let nan := tags.any fun x => x.2 != 0
  { writes :=
      ((es.filter fun e => e.2.1 != tileElem dst e.1).map fun e => (16 * e.1, natLe 16 (unsigned 128 e.2.1))) ++
      ((tags.filter fun x => BitVec.ofNat 8 x.2 != dst (0x10000 + x.1)).map fun x =>
        (0x10000 + x.1, [BitVec.ofNat 8 x.2]))
    header := hdrBytes { hd with sat := hd.sat || hs.sat || sat, inexact := hd.inexact || hs.inexact || ix, nan := hd.nan || nan
                                 chk := hd.chk || hs.chk, fault := if hd.fault = 0 then hs.fault else hd.fault }
    status := stickyStatus sat ix }

/-! ### Holds (R248) -/

/-- A tile's range. -/
def tileRange (base : Nat) : Nat × Nat := (base, tileBytes)

/-- Ranges a matrix unit holds: a half's tile from its first fill or fresh opening until its header write, and the
tile of an ACC.INIT or ACC.DRAIN from its start until it retires (R248). -/
def MUnitSt.holds (m : MUnitSt) : List (Nat × Nat) :=
  match m.run with
  | none => []
  | some r =>
    (match r.cmd.work with
      | .accInit b _ _ => [tileRange b]
      | .mm .drain p => [tileRange p.accBase]
      | _ => []) ++
    r.halves.filterMap fun h => match h.base with
      | some b => if !h.hdrDone && ((h.fresh && h.opened) || (!h.fresh && (h.hdrRead || decide (0 < h.filled)))) then
          some (tileRange b) else none
      | none => none

/-- Ranges the units of a tile hold against its adder. -/
def Tile.unitHolds (x : Tile) : List (Nat × Nat) :=
  x.f.holds ++ x.b0.holds ++ x.b1.holds ++ match x.vrun with
    | some r => match r.cmd.work with
      | .vop _ p => if p.accX then [tileRange p.xBase] else []
      | _ => []
    | none => []

/-- Whether the adder holds bytes of a range (R248). -/
def Tile.adderHas (x : Tile) (r : Nat × Nat) : Bool :=
  match x.adder with
  | some a => overlap r (tileRange a.base)
  | none => false

/-- Whether the adder holds a range that a command names (R248). -/
def Tile.adderHolds (x : Tile) (c : QCmd) : Bool :=
  match c.range with
  | some r => x.adderHas r
  | none => false

/-- Whether the adder holds the tile of a half, so that the unit may neither read nor open it: every add lands whole,
before or after a command (R106, R248). [log 141: DEDUCED] -/
def Tile.adderHasHalf (x : Tile) (h : HalfRun) : Bool :=
  match h.base with
  | some b => x.adderHas (tileRange b)
  | none => false

/-! ### Answers to a channel's adds -/

/-- A burst's descriptor is changed where it is in flight: responses carry its identity (R262, R280). -/
def State.updBurst (s : State) (b : BurstId) (f : Desc → Desc) : State :=
  let c := s.chan b.ch
  s.setChan b.ch { c with flight := c.flight.map fun d => if d.id = b.desc then f d else d }

/-- An error response on its way to a descriptor that has not ended (R262); the first one counts. -/
def Desc.failing (d : Desc) (st : Status) (addr : Nat) (wr : Bool) : Desc :=
  if d.fail.isSome || d.stop then d else { d with fail := some (st, addr, wr) }

/-- A burst of a descriptor has been taken, with a status: a result joins the descriptor's, a fault is an error response
on its way (R262). -/
def Desc.answered (d : Desc) (st : Status) (addr : Nat) (wr : Bool) : Desc :=
  let d := { d with openB := d.openB - 1 }
  if st.isFault then d.failing st addr wr else { d with status := d.status.merge st }

/-- An adder answers a burst. [log 30: DESIGN CHOICE] -/
def State.addAnswered (s : State) (b : BurstId) (st : Status) : State := s.updBurst b fun d => d.answered st b.addr true

/-- The tile's adder takes its next tile add: the destination header is read and the anchor chosen, the elements and
tags are added, and the range is held until the header is written (R247). A range that a unit holds is answered with a
retry (R248, R313); an uncorrectable word of the destination ends the add with MEM_UE (R245).
[log 37: DESIGN CHOICE] -/
def State.adderTake (s : State) (t : Nat) : State :=
  let x := s.tile t
  match x.adds with
  | [] => s
  | a :: rest =>
    let dst := a.burst.dst - spBase t
    if x.unitHolds.any (overlap (tileRange dst)) then
      let c := s.chan a.own.ch
      ((s.setTile t { x with adds := rest }).setChan a.own.ch { c with retry := c.retry ++ [a] }).count
        (fabReg (tileDie t) 0x20) 1
    else
      let (bad, s) := s.spCheck t dst tileBytes
      if bad then (s.setTile t { s.tile t with adds := rest }).addAnswered a.own .memUe
      else
        let o := tileAdd (fun i => s.byte (a.burst.dst + i)) (fun i => tget memDefault a.src i)
        let s := o.writes.foldl (fun s w => s.spWrite t (dst + w.1) w.2) s
        let run : AdderRun := ⟨dst, o.header, a.own, o.status⟩
        (s.setTile t { s.tile t with adds := rest, adder := some run }).putBit (tileBase t + 0x2000) 1 true

/-- A128_TILE_ADD (R247): once the adder is free. [log 30: DESIGN CHOICE] [log 37: DESIGN CHOICE] -/
def execA128TileAdd (t : TileId) (s : State) : Host.Outcome State Fault Refusal :=
  .next (if (s.tile t).adder.isNone && s.tileOn t && s.portFree t [inPort, adderPort 0] then s.adderTake t else s)

/-- A128_ADD_DONE (R247): the destination header is written, the hold ends, and the add is counted. -/
def execA128AddDone (t : TileId) (s : State) : Host.Outcome State Fault Refusal :=
  .next (match if s.portFree t [adderPort 1] then (s.tile t).adder else none with
    | none => s
    | some a =>
      let s := s.spWrite t (a.base + 0x10400) a.header
      let s := (s.setTile t { s.tile t with adder := none }).putBit (tileBase t + 0x2000) 1 false
      (s.count64 (tileBase t + 0x2018) 1).addAnswered a.own a.status)

/-! ### The scalar port (R182) -/

/-- SCALAR_GRANT (R182): the word is granted; a load writes its register, a store its bytes; a load that meets an
uncorrectable word is a task fault with MEM_UE. -/
def execScalarGrant (t : TileId) (s : State) : Host.Outcome State Fault Refusal :=
  .next (match if s.portFree t [scalarPort] then (s.tile t).scalar else none with
    | none => s
    | some a =>
      let s := s.setTile t { s.tile t with scalar := none }
      if a.load then
        let (bad, s) := s.spCheck t a.off a.size
        if bad then s.taskFault t a.bank .memUe .scalar a.pc
        else
          let x := s.tile t
          s.setTile t (x.setBank a.bank ((x.bank a.bank).setS a.sreg (BitVec.ofNat 64 (s.spNum t a.off a.size))))
      else s.spWrite t a.off (natLe a.size a.data.toNat))

/-! ### Arbitration (R241, R243) -/

/-- The sub-bank of a word (R241). -/
def subBank (w : Nat) : Nat := bitsN w 7 0 ^^^ (bitsN w 11 8 * 4)

/-- Whether request `a` is served before request `b` at one sub-bank: presented earlier, then the port that stands
earlier in the table (R243). -/
def spBefore (a b : SpWait) : Bool :=
  decide (b.age < a.age) || (a.age == b.age && (decide (a.port < b.port) || (a.port == b.port && decide (a.word < b.word))))

/-- The words that the ports present in a cycle: of each port, if none of its words still waits, its request of at most
its width (R243). -/
def presented (waiting : List SpWait) (reqs : List SpReq) : List SpWait :=
  (List.range 36).flatMap fun p =>
    if waiting.any fun w => w.port == p then []
    else ((reqs.filter fun r => r.port.val == p).take (portWords p)).map fun r => ⟨p, r.word.val, 0⟩

/-- SCRATCHPAD_GRANT (R243): new requests join those that wait, each sub-bank grants its oldest, and every word that is
not granted counts an arbitration loss; a lost cycle of a vector port counts in TILE_VU_STALL (R217). A port that waits
presents nothing new, and the accesses it serves wait until its last word is granted (`State.portFree`). `upset` is an
error that strikes a stored word in this cycle; it never heals a word (R245). -/
def execScratchpadGrant (t : TileId) (reqs : List SpReq) (upset : Option (SpWord × Ecc)) (s : State) :
    Host.Outcome State Fault Refusal :=
  let s := match upset with
    | some (w, e) =>
      let a := spBase t + 16 * w
      if e = Ecc.clean ∨ s.eccAt a = Ecc.uncorrectable then s else s.setEcc a e
    | none => s
  let x := s.tile t
  let ws := x.spWait ++ presented x.spWait reqs
  let lost := ws.filter fun a => ws.any fun b => subBank a.word == subBank b.word && spBefore b a
  let s := s.setTile t { x with spWait := lost.map fun a => { a with age := a.age + 1 } }
  let s := s.count64 (tileBase t + 0x2010) lost.length
  .next (if lost.any fun a => decide (22 ≤ a.port) && decide (a.port ≤ 26) then s.count64 (tileBase t + 0x1010) 1 else s)

end Sys2Proof.Machine
end

