-- ==== Sys2Proof/Machine/Packet.lean ====
section
/-! DEFINITION. Packets of the package fabric: their sources, their fixed paths, and how an access becomes packets
(R23, R24, R277, R286, R298 to R303, R310 to R313, R376). An access takes effect at its engine's act; its packets then
pass the arbiters (Fabric.lean), which their order, credits, tokens and counters are about (log 27). -/
namespace Sys2Proof.Machine

/-! ### Sources (R286, R302) -/

/-- The source of a request (R302): its index (a requester of R286, or 166, Flint), the input of a tile's egress it
enters by (a user channel 0 to 3, or 4, the front end), and whether it is traffic of a host port (R376). -/
structure Src where
  idx   : Nat
  input : Nat
  pcie  : Bool
  deriving DecidableEq, Repr

/-- The source of a tile's user channel or front end. -/
def tileSrc (t input : Nat) : Src := ⟨t, input, false⟩

/-- The source of a channel: its tile, or its mover (R302). -/
def chanSrc (ch : Nat) : Src := if ch < 512 then ⟨ch / 4, ch % 4, false⟩ else ⟨128 + (ch - 512) / 8, 0, false⟩

/-- The collective engine and update stage, the Vilvin arrivals and the host port of a network die (R286). -/
def collSrc (nd : Nat) : Src := ⟨160 + nd, 0, false⟩
def vilvinSrc (nd : Nat) : Src := ⟨162 + nd, 0, false⟩
def pcieSrc (port : Nat) : Src := ⟨164 + port, 0, true⟩

/-- Flint (R302). -/
def flintSrc : Src := ⟨166, 0, false⟩

/-- The source that an engine's queue and graph fetches carry (R302, R381): a tile, a mover, or a collective engine by its
own index; a graph engine, which R286 gives no index, by that of its die's first mover. [log 152: DESIGN CHOICE] -/
def engineSrc (e : Nat) : Src :=
  if e < 128 then ⟨e, 4, false⟩ else if e < 162 then ⟨e, 0, false⟩
  else if e < 164 then ⟨128 + 16 * (e - 162), 0, false⟩ else flintSrc

/-- The die of a source. -/
def Src.die (x : Src) : Nat :=
  if x.idx < 128 then x.idx / 64 else if x.idx < 160 then (x.idx - 128) / 16 else if x.idx < 166 then 2 + x.idx % 2 else 2

/-- The partition number a request carries (R286, R296); Flint carries none. -/
def State.partOf (s : State) (idx : Nat) : Option Nat :=
  if idx < 166 then some (field (s.reg (0x54000 + 4 * (idx / 8))) (4 * (idx % 8) + 3) (4 * (idx % 8))) else none

/-! ### Paths (R23, R24, R306, R376) -/

/-- A die by its number. -/
def dieOf (d : Nat) : Die :=
  match d with
  | 0 => .cd0 | 1 => .cd1 | 2 => .nd0 | _ => .nd1

/-- The die at the other end of a die's seam (R21). -/
def seamEnd (d i : Nat) : Nat :=
  match i with
  | 0 => 1 - d | 1 => 2 - d | 2 => 4 - d | _ => 5 - d

/-- What decides the roles of a packet's seams (R23, R24): whether its target is near memory, and its kind, 0 network, 1
far memory, 2 collective. -/
structure Traffic where
  near : Bool
  kind : Nat
  deriving DecidableEq, Repr

/-- The role of the traffic on a seam, in the order of R23; seam 3 has none. -/
def Traffic.role (tr : Traffic) (i : Nat) : Nat := if i = 0 then (if tr.near then 0 else 1) else tr.kind

/-- Where packets enter or leave the fabric: the die, the arbiters before its crossbar, the crossbar's input, and the
output of the crossbar that leads there, of those that R306 names. -/
structure Station where
  die : Nat
  up  : List FabHop
  inp : Nat
  out : Option (ArbKind × Nat)
  deriving DecidableEq, Repr

/-- A tile: through its egress where a request leaves it, its island's uplink, and its island's downlink. -/
def tileStation (t : Nat) (egress : Option Nat) : Station :=
  let d := tileDie t
  { die := d
    up := (match egress with
      | some i => [⟨dieOf d, .tileEgress, t % 64, i⟩]
      | none => []) ++ [⟨dieOf d, .islandUplink, t / 8 % 8, t % 8⟩]
    inp := t / 8 % 8, out := some (.islandDownlink, t / 8 % 8) }

/-- The crossbar inputs of a compute die are its islands (0 to 7), its movers (8), seam 0's roles (9, 10), the roles of its
other seam (11 to 13), its memory side (14) and its registers (15); of a network die the roles of its seam (0 to 2), seam 3 (3),
the optical ports (4), the host port (5), the CXL ports (6, 7), the collective engine (8) and the registers with Flint (9).
[log 152: DESIGN CHOICE] -/
def Src.station (x : Src) : Station :=
  if x.idx < 128 then tileStation x.idx (some x.input)
  else if x.idx < 160 then ⟨x.die, [⟨dieOf x.die, .moverUplink, 0, (x.idx - 128) % 16⟩], 8, none⟩
  else if x.idx < 162 then ⟨x.die, [], 8, some (.netCrossbar, 4)⟩
  else if x.idx < 164 then ⟨x.die, [], 4, some (.netCrossbar, 0)⟩
  else if x.idx < 166 then ⟨x.die, [], 5, some (.netCrossbar, 1)⟩
  else ⟨x.die, [], 9, none⟩

/-- The station of the memory-side of a stack (R284, R306). -/
def stackStation (st : Nat) : Station := ⟨st / 4, [], 14, some (.hbmController, st % 4)⟩

/-- The station of a host port (R376). -/
def hostStation (port : Nat) : Station := ⟨2 + port, [], 5, some (.netCrossbar, 1)⟩

/-- The station of the registers of a die (R299); those of a tile are reached like the tile. -/
def regStation (o : Nat) : Station :=
  match regDie o with
  | some d =>
    if d < 2 then
      if 0x1000000 ≤ o then tileStation (o % 0x1000000 / 0x10000) none else ⟨d, [], 15, none⟩
    else ⟨d, [], 9, some (.netCrossbar, 5)⟩
  | none => ⟨2, [], 9, some (.netCrossbar, 5)⟩

/-- The station of a whole-module address, a register by its whole-module offset. -/
def State.station (s : State) (a : Nat) : Option Station :=
  match s.region a with
  | .near st => some (stackStation st)
  | .far p => some ⟨2 + p / 2, [], 6 + p % 2, some (.netCrossbar, 2 + p % 2)⟩
  | .scratch t => some (tileStation t none)
  | .regs o => some (regStation o)
  | .remote f _ => some ⟨2 + f / 131072, [], 4, some (.netCrossbar, 0)⟩
  | .outside => none

/-- The kind of traffic between a source and an address (R23, R24, R376). Requests of the collective engines keep to the
collective role, those of a host port and those into the far tier to the far-memory role. [log 152: DESIGN CHOICE] -/
def State.traffic (s : State) (x : Src) (a : Nat) : Traffic :=
  match s.region a with
  | .near _ => ⟨true, if x.pcie then 1 else if x.idx = 160 ∨ x.idx = 161 then 2 else 0⟩
  | .far _ => ⟨false, 1⟩
  | _ => ⟨false, if x.pcie then 1 else if x.idx = 160 ∨ x.idx = 161 then 2 else 0⟩

/-- The crossbar input by which a die takes what crosses a seam. -/
def crossInput (d i role : Nat) : Nat := if 2 ≤ d then (if i = 3 then 3 else role) else if i = 0 then 9 + role else 11 + role

/-- The outputs over a list of seams from a die's crossbar input, with the die and the input at their end. -/
def seamHops (tr : Traffic) : Nat → Nat → List Nat → List FabHop × Nat × Nat
  | d, inp, [] => ([], d, inp)
  | d, inp, i :: r =>
    let h : FabHop := if i = 3 then ⟨dieOf d, .seam3, 0, inp⟩ else ⟨dieOf d, .seamRole, 3 * i + tr.role i, inp⟩
    let e := seamEnd d i
    let (hs, d', inp') := seamHops tr e (crossInput e i (tr.role i)) r
    (h :: hs, d', inp')

/-- The fixed path between two stations (R24). -/
def stationPath (tr : Traffic) (a b : Station) : List FabHop :=
  let (hs, d, inp) := seamHops tr a.die a.inp (pathSeams a.die b.die)
  a.up ++ hs ++ match b.out with
    | some (k, n) => [⟨dieOf d, k, n, inp⟩]
    | none => []

/-! ### Packets of an access (R277, R298, R299, R303) -/

/-- The pieces of n bytes at an address that each lie in one aligned 256-byte block (R298); `fuel` bounds their number. -/
def pieces : Nat → Nat → Nat → List (Nat × Nat)
  | 0, _, _ => []
  | fuel + 1, a, n =>
    if n = 0 then []
    else
      let k := min n (256 - a % 256)
      (a, k) :: pieces fuel (a + k) (n - k)

/-- Units of `u` bytes that n bytes at an address touch. -/
def unitsOf (u a n : Nat) : Nat := (a + n - 1) / u - a / u + 1

/-- The packets of n bytes at an address between two stations join the fabric in traversal order, each with ACTIVE = 1
(R298, R303). A packet with no arbiter on its path has arrived. -/
def State.sendTo (s : State) (cls : FabClass) (idx : Nat) (tr : Traffic) (a b : Station) (addr n : Nat) (read narrow : Bool)
    (part : Option Nat) : State :=
  let path := stationPath tr a b
  if path = [] then s
  else { s with fab := s.fab ++ (pieces (n / 256 + 2) addr n).map fun (p : Nat × Nat) =>
    { cls := cls, src := idx, active := 1, addr := p.1, len := p.2, read := read, part := part, narrow := narrow, path := path
      back := match cls with
        | .req => stationPath tr b a
        | .sub => stationPath tr b { a with out := none }
        | _ => []
      lines := unitsOf (if narrow then 32 else 64) p.1 p.2 } }

/-- Whether an access of near memory takes the narrow random path (R277): a gather or scatter element of at most 64 bytes
or an element add (`elem`), or a read of at most 32 bytes within one sector. -/
def narrowPath (elem read : Bool) (a n : Nat) : Bool :=
  (elem && decide (n ≤ 64)) || (read && decide (a % 32 + n ≤ 32))

/-- An access of n bytes at a whole-module address by a source leaves as packets of class REQ (R298, R299, R302), but for
a tile's access to its own scratchpad. -/
def State.send (s : State) (x : Src) (a n : Nat) (read elem : Bool) : State :=
  match s.station a with
  | none => s
  | some b =>
    if s.region a = .scratch x.idx then s
    else s.sendTo .req x.idx (s.traffic x a) x.station b a n read (narrowPath elem read a n)
      (match s.region a with
        | .near _ => s.partOf x.idx
        | _ => none)

/-- Bytes between a compute die's engine and a host port (R376): MV.HOST transfers and fetches from rings in host memory. -/
def State.sendHost (s : State) (x : Src) (port n : Nat) (read : Bool) : State :=
  s.sendTo .req x.idx ⟨false, 1⟩ x.station (hostStation port) 0 n read false none

/-- The plain accesses that the adder of a stack makes to another stack's granules to serve a tile add (R284, R299): class
SUB, with the index of the source whose tile add caused them (R302). -/
def State.sendSub (s : State) (idx st a n : Nat) (read : Bool) : State :=
  match s.station a with
  | none => s
  | some b => s.sendTo .sub idx ⟨true, 0⟩ (stackStation st) b a n read false (s.partOf idx)

/-- The seam that an output leads over. -/
def FabHop.seam (h : FabHop) : Option Nat :=
  match h.kind with
  | .seam3 => some 3
  | .seamRole => some (h.idx / 3)
  | _ => none

/-- Whether a packet waits at an output of a die towards a seam. -/
def FabPkt.waitsFor (p : FabPkt) (d i : Nat) : Bool :=
  match p.path with
  | h :: _ => h.die == dieOf d && h.seam == some i
  | [] => false

/-- Whether a packet waits for a seam that is fenced for a lost die (R316, R447). -/
def State.fencedOff (s : State) (p : FabPkt) : Bool :=
  match p.path with
  | h :: _ => match h.seam with
    | some i => s.seamLost i
    | none => false
  | [] => false

/-- A packet that waits for a fenced seam is answered there on RSP, as far as its response has a way back, and its buffer is
free (R316). -/
def FabPkt.answer (p : FabPkt) : List FabPkt :=
  match p.path with
  | [] => []
  | h :: _ => match p.back.dropWhile fun b => b.die != h.die with
    | [] => []
    | b :: r => [{ p with cls := .rsp, read := false, part := none, path := b :: r, back := [] }]

end Sys2Proof.Machine
end

