-- ==== Sys2Proof/Machine/Mem.lean ====
section
/-! DEFINITION. Reads and writes of device memory by engines: near memory with its error-correcting code and repair
log, the far tier with its poison, and the scratchpads (R244, R245, R276 to R280, R292, R293). -/
namespace Sys2Proof.Machine

/-- An address as its partition writes it: near-memory and far addresses are relative to the partition in Split mode
(R31). [log 24: DEDUCED] -/
def State.relAddr (s : State) (a : Nat) : Nat :=
  if !s.split then a
  else if a < 0x8000000000 then a % 0x4000000000
  else if 0x100000000000 ≤ a ∧ a < 0x200000000000 then 0x100000000000 + a % 0x80000000000
  else if 0xF00000000000 ≤ a ∧ a < 0xF00080000000 then 0xF00000000000 + a % 0x40000000
  else if 0x8000000000000 ≤ a then 0x8000000000000 + a % 0x4000000000000
  else a

/-! ### Near memory (R276, R279, R280) -/

/-- Flint adds a row to a stack's repair log, which holds 4,096 (R276); whether a spare row is left for it is a free
value that REPAIR_FULL shows. [log 15: DESIGN CHOICE] [log 16: DESIGN CHOICE] -/
def State.logRow (s : State) (st row : Nat) : State :=
  let x := s.stack st
  if x.repairLog.contains row || decide (4096 ≤ x.repairLog.length) then s
  else
    let (f, s) := (s.setStack st { x with repairLog := x.repairLog ++ [row] }).draw
    if f.toNat % 2 = 1 then s.putBit (stackReg st 0) 19 true else s

/-- The number of a sector within its stack. -/
def State.sectorOf (s : State) (a : Nat) : Nat := s.stackOffset a / 32

/-- The channel, the pseudo-channel and offset[35:11] of a sector of a stack (R273). -/
def sectorChannel (sec : Nat) : Nat := (sec / 2 % 32) ^^^ (sec / 64 % 32)
def sectorPc (sec : Nat) : Nat := sec % 2
def sectorRowbank (sec : Nat) : Nat := sec / 64

/-- The row of a sector of a stack (R273), as a number that names its channel and pseudo-channel too.
[log 15: DESIGN CHOICE] -/
def sectorRow (st sec : Nat) : Nat :=
  (Config.rowOf st (sectorChannel sec) (sectorPc sec) (sectorRowbank sec) * 32 + sectorChannel sec) * 2 + sectorPc sec

/-- A corrected read of the sector at an address (R279): written back, counted, CE_ALERT with its interrupt when the
count reaches the threshold (R294), and the row logged once four of its sectors have had errors (R276).
[log 26: DEDUCED] -/
def State.sectorCe (s : State) (a : Nat) : State :=
  let st := s.stackOf a
  let sec := s.sectorOf a
  let row := sectorRow st sec
  let s := (s.setEcc a .clean).count (stackReg st 4) 1
  let x := s.stack st
  let x := if x.ceSectors.contains sec then x else { x with ceSectors := x.ceSectors ++ [sec] }
  let s := s.setStack st x
  let s := if 4 ≤ (x.ceSectors.filter fun k => sectorRow st k == row).length then s.logRow st row else s
  if s.reg (stackReg st 4) = s.reg (stackReg st 0xC) ∧ (s.reg (stackReg st 0xC)).toNat ≠ 0 then
    (s.putBit (stackReg st 0) 18 true).stackInt st
  else s

/-- An uncorrectable sector is found (R280, R294): counted, recorded with its source, logged for repair (R276).
[log 24: DEDUCED] -/
def State.sectorUe (s : State) (a source : Nat) : State :=
  let st := s.stackOf a
  let s := (s.count (stackReg st 8) 1).putBit (stackReg st 0) 17 true
  let s := s.setReg (stackReg st 0x10) (BitVec.ofNat 64 (s.relAddr a / 32 * 32 + source * 2 ^ 52))
  s.logRow st (sectorRow st (s.sectorOf a))

/-- A controller's read of n bytes of near memory for a source of MEM_UE_ADDR (0 demand, 1 scrub, 2 adder, 3 merge):
whether it met an uncorrectable sector. -/
def State.nearRead (s : State) (a n source : Nat) : Bool × State :=
  (s.ecc.filter fun e => decide (e.1 < 0x8000000000) && decide (a < e.1 + 32) && decide (e.1 < a + n)).foldl
    (fun (bad, s) e => match e.2 with
      | .clean => (bad, s)
      | .corrected => (bad, s.sectorCe e.1)
      | .uncorrectable => (true, s.sectorUe e.1 source)) (false, s)

/-- A write of bytes into near memory (R277, R280): sectors it covers in part are merged, and a merge that finds a
sector uncorrectable counts it and leaves it so. -/
def State.nearWrite (s : State) (a : Nat) (bs : List Byte) : State :=
  let n := bs.length
  let s := if a % 32 ≠ 0 then (s.nearRead (a / 32 * 32) 32 3).2 else s
  let s := if (a + n) % 32 ≠ 0 ∧ (a % 32 = 0 ∨ (a + n) / 32 ≠ a / 32) then (s.nearRead ((a + n) / 32 * 32) 32 3).2
    else s
  s.storeClean a bs

/-! ### Held ranges (R284, R285) -/

/-- The tile add that a stack's adder runs ends: the destination header is written, the hold with it, and the add is
counted and answered (R284). -/
def State.tileAddDone (s : State) (st : Nat) : State :=
  match (s.stack st).run with
  | none => s
  | some r =>
    let s := (s.setStack st { s.stack st with run := none }).storeClean (r.base + 0x10400) r.header
    (s.count64 (stackReg st 0x20) 1).addAnswered r.own r.status

/-- A plain write that overlaps a held range waits until the hold ends (R285): the tile adds whose ranges it meets end
first. [log 153: DESIGN CHOICE] -/
def State.holdsEnd (s : State) (a n : Nat) : State :=
  (List.range 8).foldl (fun s st => match (s.stack st).run with
    | some r => if overlap (a, n) (tileRange r.base) then s.tileAddDone st else s
    | none => s) s

/-! ### The far tier (R292, R293) -/

/-- The device address of a line of a port's window (R25). -/
def lineAddr (port line : Nat) : Nat := 0x100000000000 + port * 0x40000000000 + 64 * line

/-- Requests of a port. -/
def State.cxlReqs (s : State) (p : Nat) : List CxlReq := tget (fun _ => []) s.cxl p

/-- Requests of a port written. -/
def State.setCxl (s : State) (p : Nat) (l : List CxlReq) : State := { s with cxl := tset (fun _ => []) s.cxl p l }

/-- The first request to a line leaves, and the next to that line is transmitted (R292). -/
def cxlNext (line : Nat) (l : List CxlReq) : List CxlReq :=
  let rest := l.eraseP fun r => r.line == line
  match rest.findIdx? fun r => r.line == line with
  | some i => rest.zipIdx.map fun (r, k) => if k = i then { r with sent := true } else r
  | none => rest

/-- The bytes of a MemWr or MemWrPtl land (R292). [log 18: DESIGN CHOICE] -/
def State.cxlStore (s : State) (a : Nat) (bs : List (Fin 64 × Byte)) : State :=
  bs.foldl (fun s b => s.store (a + b.1) [b.2]) s

/-- A line that a channel's far burst reads has come, with a status: the burst keeps both. -/
def Desc.farHeard (d : Desc) (line : Nat) (st : Status) (bs : List Byte) : Desc :=
  match d.far.findIdx? fun (b : FarBurst) => b.lines.contains line with
  | none => d
  | some i => { d with far := d.far.zipIdx.map fun (p : FarBurst × Nat) =>
      if p.2 = i then { p.1 with lines := p.1.lines.erase line, status := p.1.status.merge st
                                 data := tset (fun _ => []) p.1.data line bs } else p.1 }

/-- The requester of a far-tier read hears how it completed; `line` is the line's device address over 64. -/
def State.farHeard (s : State) (own : Option BurstId) (line : Nat) (st : Status) (bs : List Byte) : State :=
  match own with
  | some b => s.updBurst b fun d => d.farHeard line st bs
  | none => s

/-- The oldest request to a line of a port completes without an error (R292): a write's bytes have landed; a read brings
what the target holds, which is what memory lists there. -/
def State.cxlDone (s : State) (p : Nat) (r : CxlReq) : State :=
  let a := lineAddr p r.line
  let s := s.setCxl p (cxlNext r.line (s.cxlReqs p))
  match r.wr with
  | some bs => (s.cxlStore a bs).count64 (cxlReg p 0x30) bs.length
  | none => (s.count64 (cxlReg p 0x28) 64).farHeard r.own (a / 64) .ok (s.bytes a 64)

/-- An engine's access to far lines waits while earlier requests of the port to them have not completed (R292): their
completions come first. [log 153: DESIGN CHOICE] -/
def State.farSettle (s : State) (p a n : Nat) : State :=
  (s.cxlReqs p).foldl (fun s r =>
    if overlap (a, n) (lineAddr p r.line, 64) then s.cxlDone p r else s) s

/-- A read of n bytes of far memory at a port: whole lines; a poisoned line is counted and recorded. -/
def State.farRead (s : State) (p a n : Nat) : Bool × State :=
  let lines := (a + n + 63) / 64 - a / 64
  let s := (s.farSettle p a n).count64 (cxlReg p 0x28) (64 * lines)
  (s.ecc.filter fun e => decide (0x100000000000 ≤ e.1) && e.2 == .uncorrectable && decide (a < e.1 + 64) &&
      decide (e.1 < a + n)).foldl
    (fun (_, s) e => (true, (s.count (cxlReg p 0x14) 1).setReg (cxlReg p 0x20) (BitVec.ofNat 64 (s.relAddr e.1))))
    (false, s)

/-- A write of bytes to far memory at a port: whether it clears the poison of a line is the target's behaviour, a free
value. [log 18: DESIGN CHOICE] -/
def State.farWrite (s : State) (p a : Nat) (bs : List Byte) : State :=
  let s := ((s.farSettle p a bs.length).store a bs).count64 (cxlReg p 0x30) bs.length
  (s.ecc.filter fun e => decide (0x100000000000 ≤ e.1) && e.2 == .uncorrectable && decide (a < e.1 + 64) &&
      decide (e.1 < a + bs.length)).foldl
    (fun s e => let (f, s) := s.draw; if f.toNat % 2 = 1 then s.setEcc e.1 .clean else s) s

/-! ### Any data region -/

/-- The bytes of near memory that a read of n bytes moves (R277): whole lines on the full path, sectors on the narrow
one. -/
def nearSpan (elem : Bool) (a n : Nat) : Nat × Nat :=
  let u := if narrowPath elem true a n then 32 else 64
  (a / u * u, unitsOf u a n * u)

/-- A read, from a die, of n bytes at a whole-module address for a source: its status (R245, R280, R293, R316), with the
error counts of the memory it touches and the packets it sends. `elem` tells an element of a gather or scatter (R277). The
bytes are those of `State.bytes` where the status is OK. -/
def State.memReadFrom (s : State) (die : Nat) (x : Src) (elem : Bool) (a n : Nat) : Status × State :=
  if n = 0 then (.ok, s)
  else
    let r := s.reachAll die a n
    if r != .ok then (r, s)
    else
      let s := s.send x a n true elem
      let (bad, s) := match s.region a with
        | .near _ => s.nearRead (nearSpan elem a n).1 (nearSpan elem a n).2 0
        | .far p => s.farRead p a n
        | .scratch t => s.spCheck t (a - spBase t) n
        | _ => (false, s)
      (if bad then .memUe else .ok, s)

/-- A source's read from its own die. -/
def State.memReadAs (s : State) (x : Src) (elem : Bool) (a n : Nat) : Status × State := s.memReadFrom x.die x elem a n

/-- A read that is no element of a gather or scatter. -/
def State.memRead (s : State) (x : Src) (a n : Nat) : Status × State := s.memReadAs x false a n

/-- A source's write of bytes at a whole-module address of near memory, the far tier or a scratchpad. -/
def State.memWriteAs (s : State) (x : Src) (elem : Bool) (a : Nat) (bs : List Byte) : Status × State :=
  if bs = [] then (.ok, s)
  else
    let r := s.reachAll x.die a bs.length
    if r != .ok then (r, s)
    else
      let s := s.send x a bs.length false elem
      match s.region a with
      | .near _ => (.ok, (s.holdsEnd a bs.length).nearWrite a bs)
      | .far p => (.ok, s.farWrite p a bs)
      | .scratch t => (.ok, s.spWrite t (a - spBase t) bs)
      | _ => (.ok, s)

/-- A write that is no element of a scatter. -/
def State.memWrite (s : State) (x : Src) (a : Nat) (bs : List Byte) : Status × State := s.memWriteAs x false a bs

end Sys2Proof.Machine
end

