-- ==== Sys2Proof/Machine/Launch.lean ====
section
/-! DEFINITION. Tasks from launch to completion, the instruction-memory window, local events from outside and the
all-forward mode (R159, R160, R170 to R173, R178, R183 to R186, R192, R389). -/
namespace Sys2Proof.Machine

/-- Whether a region is near memory, the far tier or the scratchpad of tile t (R389). -/
def Region.isData (r : Region) (t : Nat) : Bool :=
  match r with
  | .near _ => true
  | .far _ => true
  | .scratch u => u == t
  | _ => false

/-! ### Launch fields (R388, R389) -/

/-- ENTRY of a launch. -/
def Cmd.entry (c : Cmd) : BitVec 10 := BitVec.ofNat 10 (bytesN c.bytes 25 24)
/-- PIN_BASE of a launch. -/
def Cmd.pinBase (c : Cmd) : Nat := bytesN c.bytes 27 26 % 1024
/-- PIN_LEN of a launch. -/
def Cmd.pinLen (c : Cmd) : Nat := bytesN c.bytes 29 28 % 2048
/-- SERIAL of a launch. -/
def Cmd.serial (c : Cmd) : Bool := bitN (byteAt c.bytes 30) 0
/-- Bytes of a launch's parameter block. -/
def Cmd.paramLen (c : Cmd) : Nat := 8 * byteAt c.bytes 31
/-- PARAM of a launch. -/
def Cmd.param (c : Cmd) : Nat := bytesN c.bytes 39 32 % 2 ^ 52

/-- A command runs on its engine. -/
def State.startCmd (s : State) (c : Cmd) : State := s.setCmd { c with phase := .running }

/-- A retired tile (R464). -/
def State.retired (s : State) (t : Nat) : Bool := flag (s.reg (tileBase t + 0x4000)) 3

/-- LAUNCH (R170, R389): the tile takes the command, and its task waits for a bank. A retired tile answers CHK (R464),
a lost one DIE_LOST (R447). [log 34: DEDUCED] -/
def execLaunch (cid : Nat) (s : State) : Host.Outcome State Fault Refusal :=
  .next (match s.passed cid 0x10 with
    | none => s
    | some c =>
      let s := s.taken c
      let x := s.tile c.engine
      if s.dieLost (tileDie c.engine) then s.finish cid .dieLost
      else if s.retired c.engine then s.finish cid .chk
      else (s.startCmd c).setTile c.engine { x with launches := x.launches ++ [cid] })

/-! ### Preload (R171) -/

/-- The bank the next launch loads: the lower free one, and none while a preloaded task waits or, in test mode, while
a task issues (R171, R466). [log 34: DEDUCED] -/
def Tile.idleBank (x : Tile) (test : Bool) : Option Bool :=
  let waiting := fun (b : Bank) => b.phase == .preloaded || b.phase == .loading
  if waiting x.bank0 || waiting x.bank1 || (test && x.cur.phase == .issuing) then none
  else if x.bank0.phase = .free then some false
  else if x.bank1.phase = .free then some true
  else none

/-- Registers of a parameter block from word `lo` on, one per 8 bytes, those it does not reach left at 0 (R170). -/
def paramRegs {n : Nat} (bs : List Byte) (lo : Nat) : Table (BitVec n) :=
  (List.range 32).foldl (fun tb i =>
    tset (fun _ => 0) tb i (BitVec.ofNat n (bytesN bs (8 * (lo + i) + 7) (8 * (lo + i))))) []

/-- The bank of a launch whose parameter block is at hand (R163, R170). -/
def launchBank (c : Cmd) (bs : List Byte) (predBad : Bool) : Bank :=
  { Bank.reset with
    phase := .preloaded, pc := c.entry, s := paramRegs bs 0, a := paramRegs bs 32, d := paramRegs bs 64
    pinBase := c.pinBase, pinLen := c.pinLen, pinned := true, cid := c.cid, kernel := c.kernel, serial := c.serial
    predBad := predBad }

/-- The read of a launch's parameter block: its status and its address (R171, R389). [log 137: DEDUCED] -/
def State.readParams (s : State) (t : Nat) (c : Cmd) (bus : Bool) : Status × Nat × State :=
  if c.paramLen = 0 then (.ok, 0, s)
  else match s.physAddr c.part c.param with
    | none => (.bounds, 0, s)
    | some a =>
      if !(s.region a).isData t || !s.extentOk a c.paramLen then (.bounds, a, s)
      else
        let (st, s) := s.memRead (tileSrc t 4) a c.paramLen
        (if bus then st.merge .bus else st, a, s)

/-- A launch that its tile took and that no abort has ended since. -/
def State.passedLaunch (s : State) (cid : Nat) : Option Cmd :=
  match s.cmd? cid with
  | some c => if c.phase = .running then some c else none
  | none => none

/-- PRELOAD_COMPLETE (R171, R184): the next launch's block is read and its range pinned into the idle bank; a block
that cannot be read completes the task with its status, and an aborted launch is passed over. `bus` is a bus error of the read. -/
def execPreloadComplete (t : TileId) (bus : Bool) (s : State) : Host.Outcome State Fault Refusal :=
  let x := s.tile t
  .next (match x.launches, x.idleBank (flag (s.reg 0xA0010) 0) with
    | cid :: rest, some i => match s.passedLaunch cid with
      | none => s.setTile t { x with launches := rest, predBad := true }
      | some c =>
        let (st, a, s) := s.readParams t c bus
        let x := { s.tile t with launches := rest }
        if st = .ok then
          s.setTile t { x.setBank i (launchBank c (s.bytes a c.paramLen) x.predBad) with predBad := false }
        else (s.setTile t { x with predBad := true }).finish cid st
    | _, _ => s)

/-! ### Switch and completion (R172, R173) -/

/-- Whether the active bank's task has left issue: no task issues, no bundle or repeat is open, no scalar access
waits. [log 35: DEDUCED] -/
def Tile.between (x : Tile) : Bool :=
  x.cur.phase != .issuing && x.issue.isNone && x.rep.isNone && x.scalar.isNone

/-- TASK_SWITCH (R172): the preloaded task starts issuing; a SERIAL task first waits until its predecessor has
completed, and completes ABORTED without issuing if that ended in a fault or was aborted. [log 35: DEDUCED] -/
def execTaskSwitch (t : TileId) (s : State) : Host.Outcome State Fault Refusal :=
  let x := s.tile t
  let i := x.bank1.phase == .preloaded
  let b := x.bank i
  .next (if b.phase != .preloaded || !x.between || !s.tileOn t || s.retired t then s
    else if b.serial && x.cur.phase != .free && x.active != i then s
    else if b.serial && (b.predBad || x.prevBad) then
      (s.setTile t { x.setBank i Bank.reset with prevBad := true }).finish b.cid .aborted
    else s.setTile t { x.setBank i { b with phase := .issuing } with active := i })

/-- Whether a bank's task has ended its issue and everything it issued has retired or been discarded (R173). -/
def Tile.taskDone (x : Tile) (i : Bool) : Bool :=
  let b := x.bank i
  b.phase == .ended && !(x.live.any fun c => c.cid == b.cid) &&
    (i != x.active || (x.issue.isNone && x.rep.isNone)) &&
    match x.scalar with
    | some a => a.bank != i
    | none => true

/-- The bank of a task that is done (R173), bank 0 first. -/
def Tile.doneBank (x : Tile) : Option Bool :=
  if x.taskDone false then some false else if x.taskDone true then some true else none

/-- TASK_COMPLETE (R173): the task completes with its status under R14, its pin is released and its bank freed. -/
def execTaskComplete (t : TileId) (s : State) : Host.Outcome State Fault Refusal :=
  let x := s.tile t
  .next (match x.doneBank with
    | none => s
    | some i =>
      let b := x.bank i
      let bad := b.faulted || b.aborted
      (s.setTile t { x.setBank i Bank.reset with prevBad := if i = x.active then bad else x.prevBad }).finish b.cid
        b.worst)

/-! ### Instruction memory from outside (R183, R185) -/

/-- Whether a bank's pin covers some of n > 0 bytes from an offset of the tile's instruction memory. -/
def Bank.pinMeets (b : Bank) (off n : Nat) : Bool :=
  b.pinned && (span (off / 64) ((off + n - 1) / 64 + 1 - off / 64)).any fun i => b.pins (i % 1024)

/-- Whether some task of the tile pins some of the bytes. -/
def Tile.pinMeets (x : Tile) (off n : Nat) : Bool := x.bank0.pinMeets off n || x.bank1.pinMeets off n

/-- A write into instruction memory at a device address: the error-correcting code of each touched bundle is computed
anew (R183). -/
def State.imemWrite (s : State) (a : Nat) (bs : List Byte) : State :=
  let s := s.store a bs
  { s with ecc := s.ecc.filter fun e => !(decide (a < e.1 + 64) && decide (e.1 < a + bs.length)) }

/-- A host's write of bytes into the window of tile t at an offset (R185): dropped and counted where a pin covers some
of them. -/
def State.imemHost (s : State) (t off : Nat) (bs : List Byte) : State :=
  if bs = [] then s
  else if (s.tile t).pinMeets off bs.length then (s.count (tileBase t + 0x14) 1).putBit (tileBase t) 4 true
  else s.imemWrite (imemBase t + off) bs

/-- IMEM_HOST_WRITE (R185): `off` is an offset of register space in an instruction-memory window. -/
def execImemHostWrite (path : Path) (off : Nat) (bytes : List Byte) (s : State) : Host.Outcome State Fault Refusal :=
  if !(Instr.wf (.imemHostWrite path off bytes)) then .fault .illFormed
  else .next (s.kernelWrite path off fun o s =>
    if 0x2000000 ≤ o ∧ o < 0x2800000 then s.imemHost ((o - 0x2000000) / 0x10000) (o % 0x10000) bytes else s)

/-! ### Local events and modes by register (R160, R178, R192) -/

/-- TILE_EV_WRITE (R192): a write acts as SYN.EVSET. -/
def execTileEvWrite (path : Path) (t : TileId) (n : Fin 16) (v : BitVec 32) (s : State) :
    Host.Outcome State Fault Refusal :=
  .next (s.kernelWrite path (evReg t n) fun o s => s.setReg o (v.setWidth 64))

/-- A write of TILE_BWD_MODE at its offset (R160): ALL_FWD is requested, and PENDING tells whether it differs from the
mode in effect. -/
def State.writeBwdMode (s : State) (o : Nat) (v : Nat) : State :=
  let act := flag (s.reg o) 2
  (s.putBit o 0 (bitN v 0)).putBit o 1 (bitN v 0 != act)

/-- ALL_FWD_WRITE (R160). -/
def execAllFwdWrite (path : Path) (t : TileId) (v : BitVec 32) (s : State) : Host.Outcome State Fault Refusal :=
  .next (s.kernelWrite path (tileBase t + 0x8300) fun o s => s.writeBwdMode o v.toNat)

/-- Whether a bundle whose issue is open still has its S5 command to put into its queue (R160, R165). -/
def Tile.s5Open (x : Tile) : Bool :=
  match x.issue with
  | some i => i.todo.contains 5
  | none => false

/-- MODE_SWITCH (R160): the requested mode takes effect once B0 and B1 have empty queues and no command in flight; a
bundle that issued under the old mode first puts its S5 command into its queue. -/
def execModeSwitch (t : TileId) (s : State) : Host.Outcome State Fault Refusal :=
  let x := s.tile t
  let o := tileBase t + 0x8300
  .next (if flag (s.reg o) 1 && x.b0.queue.isEmpty && x.b1.queue.isEmpty && x.b0.run.isNone && x.b1.run.isNone &&
      !x.s5Open then
      (s.putBit o 2 (flag (s.reg o) 0)).putBit o 1 false
    else s)

end Sys2Proof.Machine
end

