-- ==== Sys2Proof/Machine/Chan.lean ====
section
/-! DEFINITION. DMA channels: descriptors as data, the ring registers, aborts, halts and bus errors
(R249 to R252, R261 to R268, R270, R271). -/
namespace Sys2Proof.Machine

/-! ### Channels and their registers -/

/-- The die of a channel: of its tile, or of its mover (R268, R396). -/
def chanDie (ch : Nat) : Nat := if ch < 512 then ch / 256 else (ch - 512) / 128

/-- The partition of a channel. -/
def State.chanPart (s : State) (ch : Nat) : Nat := if s.split then chanDie ch else 0

/-- The mover of a mover channel. -/
def moverOf (ch : Nat) : Nat := (ch - 512) / 8

/-- The channel and the register offset of a whole-module register offset (R270, R271). -/
def chanAt (o : Nat) : Option (Nat × Nat) :=
  if 0x1000000 ≤ o ∧ o < 0x1800000 then
    let r := o % 0x10000
    if 0x2100 ≤ r ∧ r < 0x2300 then some (4 * ((o - 0x1000000) / 0x10000) + (r - 0x2100) / 0x80, (r - 0x2100) % 0x80)
    else none
  else if 0x40000 ≤ o ∧ o < 0x50000 then
    let r := o % 0x800
    if 0x100 ≤ r ∧ r < 0x500 then some (512 + 8 * ((o - 0x40000) / 0x800) + (r - 0x100) / 0x80, (r - 0x100) % 0x80)
    else none
  else none

/-- PROD and CONS of a channel. -/
def State.prod (s : State) (ch : Nat) : BitVec 16 := (s.reg (chanReg ch 0xC)).setWidth 16
def State.cons (s : State) (ch : Nat) : BitVec 16 := (s.reg (chanReg ch 0x10)).setWidth 16
/-- RUN of a channel. -/
def State.running (s : State) (ch : Nat) : Bool := flag (s.reg (chanReg ch 0x14)) 0
/-- HALTED of a channel. -/
def State.halted (s : State) (ch : Nat) : Bool := flag (s.reg (chanReg ch 0x18)) 1
/-- STOPPED of the mover of a channel; never of a user channel (R264). -/
def State.stopped (s : State) (ch : Nat) : Bool := decide (512 ≤ ch) && flag (s.reg (moverReg (moverOf ch) 0)) 0
/-- Entries of a channel's ring (R249). -/
def State.ringLen (s : State) (ch : Nat) : Nat := 2 ^ field (s.reg (chanReg ch 8)) 4 0

/-- A channel's ignored record: counted, with its index, reason and XFER (R270). -/
def State.chanIgnored (s : State) (ch index : Nat) (reason : Status) (xfer : Bool) : State :=
  (s.count (chanReg ch 0x30) 1).setReg (chanReg ch 0x38)
    (BitVec.ofNat 64 (index % 65536 + 65536 * reason.code + (if xfer then 2 ^ 24 else 0)))

/-! ### Descriptors (R251 to R256) -/

/-- Word i of a descriptor. -/
def Desc.w (d : Desc) (i : Nat) : Nat := (d.words.getD i 0).toNat
/-- KIND, OP and AFMT. -/
def Desc.kind (d : Desc) : Nat := bitsN (d.w 0) 3 1
def Desc.op (d : Desc) : Nat := bitsN (d.w 0) 5 4
def Desc.afmt (d : Desc) : Nat := bitsN (d.w 0) 8 6
/-- BARRIER, SIG_EN and SIG_IDX. -/
def Desc.barrier (d : Desc) : Bool := bitN (d.w 0) 9
def Desc.sigEn (d : Desc) : Bool := bitN (d.w 0) 10
def Desc.sigIdx (d : Desc) : Nat := bitsN (d.w 0) 26 11
/-- SRC and DST. -/
def Desc.src (d : Desc) : Nat := d.w 1 % 2 ^ 52
def Desc.dst (d : Desc) : Nat := d.w 2 % 2 ^ 52
/-- Bytes of an element of a gather or scatter. -/
def Desc.esz (d : Desc) : Nat := 2 ^ bitsN (d.w 4) 36 32
/-- COUNT of a gather or scatter. -/
def Desc.countE (d : Desc) : Nat := bitsN (d.w 4) 31 0
/-- Bytes of an index. -/
def Desc.idxSize (d : Desc) : Nat := if bitN (d.w 4) 37 then 8 else 4
/-- N0 to N3 of a strided transfer. -/
def Desc.n0 (d : Desc) : Nat := bitsN (d.w 3) 23 0
def Desc.n1 (d : Desc) : Nat := bitsN (d.w 3) 39 24
def Desc.n2 (d : Desc) : Nat := bitsN (d.w 3) 51 40
def Desc.n3 (d : Desc) : Nat := bitsN (d.w 3) 63 52
/-- Source stride k, k = 1 to 3, and destination stride k. -/
def Desc.ss (d : Desc) (k : Nat) : Int := signed 32 (bitsN (d.w (3 + k)) 31 0)
def Desc.ds (d : Desc) (k : Nat) : Int := signed 32 (bitsN (d.w (3 + k)) 63 32)
/-- DSTRIDE. -/
def Desc.dstride (d : Desc) : Int := signed 32 (bitsN (d.w 5) 31 0)

/-- Bytes that a descriptor moves (R253 to R255). [log 53: DEDUCED] -/
def Desc.total (d : Desc) : Nat :=
  match d.kind with
  | 0 => bitsN (d.w 3) 39 0
  | 1 => d.n0 * d.n1 * d.n2 * d.n3
  | 2 | 3 => d.countE * d.esz
  | _ => 0

/-- RESIDUE (R252, R258, R261): bytes, or elements of a gather or scatter, of the bursts never started. -/
def Desc.residue (d : Desc) : Nat :=
  min (2 ^ 40 - 1) (match d.kind with
    | 0 | 1 => d.total - d.pos
    | 2 | 3 => d.countE - ceilDiv d.pos d.esz
    | _ => 0)

/-- A descriptor of a ring. -/
def Desc.isRing (d : Desc) : Bool :=
  match d.origin with
  | .ring _ => true
  | _ => false

/-- A descriptor of DMA.XFER. -/
def Desc.isXfer (d : Desc) : Bool :=
  match d.origin with
  | .xfer _ _ _ _ => true
  | _ => false

/-- Whether bursts of a descriptor have still to start. -/
def Desc.unstarted (d : Desc) : Bool :=
  !d.stop && match d.phase with
    | .fetched => true
    | .moving => decide (d.pos < d.total)
    | .done => false

/-- A descriptor that ends before its last burst (R261, R262): no burst starts any more, and its status is fixed. One
that has ended already keeps its status: the first fault stands (R14). [log 59: DEDUCED] -/
def Desc.ended (d : Desc) (st : Status) : Desc :=
  if d.phase = .done ∨ d.stop = true then { d with fail := none }
  else { d with status := d.status.merge st, stop := true, fail := none }

/-! ### Aborts (R261) -/

/-- The index of the descriptor that an abort ends among those that `mine` names: the first whose bursts have not all
started, else the last; past the end where there is none. [log 45: DEDUCED] -/
def abortIndex (mine : Desc → Bool) (ds : List Desc) : Nat :=
  match ds.findIdx? fun d => mine d && d.unstarted with
  | some i => i
  | none => ((ds.zipIdx.filter fun (p : Desc × Nat) => mine p.1).getLast?.map fun p => p.2).getD ds.length

/-- A write of ABORT, which ends the current descriptor whoever asked for it, or the QDESTROY of the queue that posted the
ring's entries, which ends the ring's alone (R261): the descriptor ends ABORTED; ring entries fetched behind it stay with
software's OWN = 1. An idle channel is not touched. [log 42: DEDUCED] -/
def State.abortWhere (s : State) (ch : Nat) (mine : Desc → Bool) : State :=
  let c := s.chan ch
  let i := abortIndex mine c.flight
  s.setChan ch { c with flight := (c.flight.zipIdx.filter fun p => p.2 ≤ i || !p.1.isRing).map fun p =>
    if p.2 = i then { p.1.ended .aborted with byReg := p.1.isRing } else p.1 }

/-- A write of ABORT (R261). -/
def State.abortChan (s : State) (ch : Nat) : State := s.abortWhere ch fun _ => true

/-- The QDESTROY of the queue of an MV.POST (R261, R397). -/
def State.abortRing (s : State) (ch : Nat) : State := s.abortWhere ch Desc.isRing

/-- The DMA.XFERs of a task that is aborted end ABORTED on its tile's channels (R190, R261), but for the one with the
sequence number `spare`: a forced write proceeds although it discards the task that issued it (R185).
[log 150: DEDUCED] -/
def State.abortXfers (s : State) (t cid : Nat) (spare : Option Nat) : State :=
  let x := s.tile t
  let mine := fun (d : Desc) => match d.origin with
    | .xfer seq _ _ _ => some seq != spare && x.dmFlight.any fun c => c.seq == seq && c.cid == cid
    | _ => false
  (List.range 4).foldl (fun s n =>
    let c := s.chan (4 * t + n)
    s.setChan (4 * t + n) { c with flight := c.flight.map fun d => if mine d then d.ended .aborted else d }) s

/-- A task is aborted or discarded (R190), its DMA commands with it. [log 45: DEDUCED] -/
def State.abortWork (s : State) (t cid : Nat) : State := (s.abortXfers t cid none).abortTask t cid

/-! ### Halts and bus errors (R262 to R266) -/

/-- A channel halts with a status; a fetch or write-back fault sets FETCH_FAULT (R262 to R265). [log 42: DEDUCED] -/
def State.haltChan (s : State) (ch : Nat) (st : Status) (fetch : Bool) : State :=
  let o := chanReg ch 0x18
  ((s.putBit o 1 true).putReg o 9 2 st.code).putBit o 11 fetch

/-- A failing access as FAIL_ADDR and DMA_MV_FAIL record it: VALID, direction, address (R270, R271). -/
def failWord (addr : Nat) (wr : Bool) : Word :=
  BitVec.ofNat 64 (2 ^ 53 + (if wr then 2 ^ 52 else 0) + addr % 2 ^ 52)

/-- A bus error of a mover (R264): it carries no identity, so every descriptor in flight ends with BUS and every
channel halts; a mover already stopped raises no second interrupt. -/
def State.moverError (s : State) (m addr : Nat) (wr : Bool) : State :=
  let s := (List.range 8).foldl (fun s k =>
    let ch := 512 + 8 * m + k
    let c := s.chan ch
    (s.setChan ch { c with flight := c.flight.map fun d => d.ended .bus }).haltChan ch .bus false) s
  let again := flag (s.reg (moverReg m 0)) 0
  let s := ((s.setReg (moverReg m 8) (failWord addr wr)).putBit (moverReg m 0) 0 true).putBit (moverReg m 0) 1 true
  if again then s else s.chanInt (512 + 8 * m)

/-- The descriptors of a list with the first that satisfies `p` replaced. -/
def replaceFirst (p : Desc → Bool) (f : Desc → Desc) : List Desc → List Desc
  | [] => []
  | d :: r => if p d then f d :: r else d :: replaceFirst p f r

/-- A descriptor that moves data and has not ended. -/
def Desc.live (d : Desc) : Bool := d.phase == .moving && !d.stop

/-- FAIL_ADDR of a user channel latches a failing access (R263). -/
def State.latchFail (s : State) (ch addr : Nat) (wr : Bool) : State := s.setReg (chanReg ch 0x20) (failWord addr wr)

/-- A bus error on a user channel (R263), of the first descriptor that `mine` names: it ends with BUS; a ring's channel
halts, latches the access and raises its interrupt, while a DMA.XFER's fault is its task's (R267). -/
def State.userBusError (s : State) (ch : Nat) (mine : Desc → Bool) (addr : Nat) (wr : Bool) : State :=
  let c := s.chan ch
  match c.flight.find? mine with
  | none => s
  | some d =>
    let s := s.setChan ch { c with flight := replaceFirst mine (fun d => d.ended .bus) c.flight }
    if d.isXfer then s else ((s.haltChan ch .bus false).latchFail ch addr wr).chanInt ch

/-- A bus error of a burst of any channel: on a mover it stops the whole mover (R263, R264). -/
def State.burstBus (s : State) (b : BurstId) (wr : Bool) : State :=
  if b.ch < 512 then s.userBusError b.ch (fun d => d.id == b.desc && d.live) b.addr wr
  else s.moverError (moverOf b.ch) b.addr wr

/-- An error of a burst of any channel: a bus error acts at once (R263, R264), any other is a response on its way
(R262). -/
def State.burstError (s : State) (b : BurstId) (st : Status) (wr : Bool) : State :=
  if st = .bus then s.burstBus b wr else s.updBurst b fun d => d.failing st b.addr wr

/-- A started burst is taken, with a status. -/
def State.burstAnswered (s : State) (b : BurstId) (st : Status) (wr : Bool) : State :=
  if st.isFault then (s.updBurst b fun d => { d with openB := d.openB - 1 }).burstError b st wr
  else s.updBurst b fun d => d.answered st b.addr wr

/-- An error on the fetch of an entry or on a write-back (R265): the channel halts with FETCH_FAULT; a BUS latches the
access (R263), and on a mover stops the whole mover (R264). -/
def State.fetchFault (s : State) (ch : Nat) (st : Status) (addr : Nat) (wr : Bool) : State :=
  if 512 ≤ ch ∧ st = .bus then (s.moverError (moverOf ch) addr wr).putBit (chanReg ch 0x18) 11 true
  else
    let s := s.haltChan ch st true
    (if st = .bus then s.latchFail ch addr wr else s).chanInt ch

/-- An error response of R262 or R266 ends the descriptor it belongs to; a ring's channel halts with the status and
raises its interrupt, but not for BOUNDS, which never halts (R266). -/
def State.errorResponse (s : State) (ch : Nat) : State :=
  let c := s.chan ch
  let failed := fun (d : Desc) => d.fail.isSome
  match c.flight.find? failed with
  | none => s
  | some d => match d.fail with
    | none => s
    | some (st, _, _) =>
      let s := s.setChan ch { c with flight := replaceFirst failed (fun d => d.ended st) c.flight }
      if d.isXfer || st == .bounds then s else (s.haltChan ch st false).chanInt ch

/-- DMA_MEM_UE_RESPONSE (R262): the error response of a burst arrives. -/
def execDmaMemUeResponse (ch : ChanId) (s : State) : Host.Outcome State Fault Refusal := .next (s.errorResponse ch)

/-- DMA_BUS_ERROR (R263), on a user channel. -/
def execDmaBusError (ch : ChanId) (addr : Addr) (wr : Bool) (s : State) : Host.Outcome State Fault Refusal :=
  .next (if ch.val < 512 then s.userBusError ch Desc.live addr.toNat wr else s)

/-- MOVER_BUS_ERROR (R264), while a descriptor of the mover is in flight. -/
def execMoverBusError (m : Fin 32) (addr : Addr) (wr : Bool) (s : State) : Host.Outcome State Fault Refusal :=
  .next (if (List.range 8).any fun k => !(s.chan (512 + 8 * m + k)).flight.isEmpty then s.moverError m addr.toNat wr
    else s)

/-! ### Ring registers (R249, R267, R270) -/

/-- A write of PROD: ignored and recorded when the ring would hold more than its entries; else the ring takes it, and
an entry that held OWN = 0 is fetched again (R249, R250). [log 47: DEDUCED] -/
def State.writeProd (s : State) (ch : Nat) (v : BitVec 16) : State :=
  if s.ringLen ch < (v - s.cons ch).toNat then s.chanIgnored ch v.toNat .bounds false
  else (s.setReg (chanReg ch 0xC) (v.setWidth 64)).putBit (chanReg ch 0x18) 10 false

/-- A write of RING_BASE: ignored while RUN = 1, else PROD and CONS start at 0 (R249). -/
def State.writeRingBase (s : State) (ch : Nat) (v : Word) : State :=
  if s.running ch then s
  else ((s.setReg (chanReg ch 0) (BitVec.ofNat 64 (field v 51 6 * 64))).setReg (chanReg ch 0xC) 0).setReg
    (chanReg ch 0x10) 0

/-- A write of RING_CFG: RSIZE only while RUN = 0 and only 1 to 16, KERNEL only by the kernel path (R249, R267, R270). -/
def State.writeRingCfg (s : State) (ch : Nat) (v : Nat) (kernel : Bool) : State :=
  let o := chanReg ch 8
  let n := v % 32
  let s := if s.running ch || n == 0 || decide (16 < n) then s else s.putReg o 4 0 n
  if kernel then s.putBit o 5 (bitN v 5) else s

/-- A write of RESUME: ends a halt, on a mover only once it is no longer stopped (R263 to R265). -/
def State.resumeChan (s : State) (ch : Nat) : State :=
  if s.halted ch && !s.stopped ch then
    ((s.putBit (chanReg ch 0x18) 1 false).putBit (chanReg ch 0x18) 11 false).putBit (chanReg ch 0x20) 53 false
  else s

/-- A write of RUN; a retired tile ignores RUN = 1 (R464). -/
def State.writeRun (s : State) (ch : Nat) (run : Bool) : State :=
  if run && decide (ch < 512) && s.retired (ch / 4) then s else s.putBit (chanReg ch 0x14) 0 run

/-- A write of DMA_CH_CTRL (R270). -/
def State.writeCtrl (s : State) (ch : Nat) (v : Nat) : State :=
  let s := s.writeRun ch (bitN v 0)
  let s := if bitN v 1 then s.abortChan ch else s
  if bitN v 2 then s.resumeChan ch else s

/-- A write of RESTART (R264): STOPPED and VALID clear; the channels stay halted. -/
def State.restartMover (s : State) (m : Nat) : State :=
  (s.putBit (moverReg m 0) 0 false).putBit (moverReg m 8) 53 false

/-- A write of a channel register over a host path: the action on the channel it reaches. -/
def State.chanWrite (s : State) (path : Path) (ch o : Nat) (act : Nat → State → State) : State :=
  s.kernelWrite path (chanReg ch o) fun o' s => match chanAt o' with
    | some (c, _) => act c s
    | none => s

/-- DMA_CH_PROD_WRITE (R249). -/
def execDmaChProdWrite (path : Path) (ch : ChanId) (v : BitVec 32) (s : State) : Host.Outcome State Fault Refusal :=
  .next (s.chanWrite path ch 0xC fun c s => s.writeProd c (v.setWidth 16))

/-- DMA_CH_RING_BASE_WRITE (R249). -/
def execDmaChRingBaseWrite (path : Path) (ch : ChanId) (v : BitVec 64) (s : State) :
    Host.Outcome State Fault Refusal :=
  .next (s.chanWrite path ch 0 fun c s => s.writeRingBase c v)

/-- DMA_CH_RING_CFG_WRITE (R267, R270). -/
def execDmaChRingCfgWrite (path : Path) (ch : ChanId) (v : BitVec 32) (s : State) :
    Host.Outcome State Fault Refusal :=
  .next (s.chanWrite path ch 8 fun c s => s.writeRingCfg c v.toNat true)

/-- DMA_RUN (R270). -/
def execDmaRun (path : Path) (ch : ChanId) (run : Bool) (s : State) : Host.Outcome State Fault Refusal :=
  .next (s.chanWrite path ch 0x14 fun c s => s.writeRun c run)

/-- DMA_ABORT (R261): RUN is written as it stands. -/
def execDmaAbort (path : Path) (ch : ChanId) (s : State) : Host.Outcome State Fault Refusal :=
  .next (s.chanWrite path ch 0x14 fun c s => s.abortChan c)

/-- DMA_RESUME (R265): RUN is written as it stands. -/
def execDmaResume (path : Path) (ch : ChanId) (s : State) : Host.Outcome State Fault Refusal :=
  .next (s.chanWrite path ch 0x14 fun c s => s.resumeChan c)

/-- RESTART (R264). -/
def execRestart (path : Path) (m : Fin 32) (s : State) : Host.Outcome State Fault Refusal :=
  .next (s.kernelWrite path (moverReg m 0x10) fun o s => s.restartMover ((o - 0x40000) / 0x800))

end Sys2Proof.Machine
end

