-- ==== Sys2Proof/Machine/Power.lean ====
section
/-! DEFINITION. The power governor (R33 to R41, R46) and seam replay (R22). -/
namespace Sys2Proof.Machine

/-! ### Levels (R35, R37) -/

/-- The level of instance i (0 on CD0 or ND0, 1 on CD1 or ND1) of class c (0 compute, 1 memory, 2 network). -/
def State.level (s : State) (c i : Nat) : Nat := field (s.reg 0x1000C) (4 * (2 * c + i) + 3) (4 * (2 * c + i))

/-- A level written. -/
def State.setLevel (s : State) (c i l : Nat) : State := s.putReg 0x1000C (4 * (2 * c + i) + 3) (4 * (2 * c + i)) l

/-- The die of an instance: compute and memory on the compute dies, network on the network dies (R35). -/
def classDie (c i : Nat) : Nat := if c = 2 then 2 + i else i

/-- The limit of a class under a profile (R37). -/
def profileLimit (profile c : Nat) : Nat :=
  if (profile = 1 ∧ c = 0) ∨ (profile = 2 ∧ c = 2) ∨ (profile = 3 ∧ c = 1) then 6 else 12

/-- The cut order a profile starts with (R37). -/
def profileOrder (profile : Nat) : List Nat :=
  match profile with
  | 1 => [1, 2, 0]
  | 3 => [0, 2, 1]
  | _ => [0, 1, 2]

/-- Whether cycle i of a class's clock is one its duty lets through: (16 − L)/16, spread evenly over every 16 cycles
(R35); which cycles is a free value. [log 13: DESIGN CHOICE] -/
def dutyOpen (l i : Nat) : Bool := l == 0 || decide ((i + Config.dutyPhase) * (16 - l) % 16 < 16 - l)

/-- The next transmit slot of a network die's optical ports, and whether the network duty lets it through (R35, R309).
[log 13: DESIGN CHOICE] -/
def State.netSlot (s : State) (nd : Nat) : Bool × State :=
  let n := tget (fun _ => 0) s.netSlots nd
  (dutyOpen (s.level 2 nd) n, { s with netSlots := tset (fun _ => 0) s.netSlots nd (n + 1) })

/-- The next slot of the collective engine of a network die (R35), counted apart from those of its ports: whether the
network duty lets it go. [log 13: DESIGN CHOICE] -/
def State.colSlot (s : State) (nd : Nat) : Bool × State :=
  let n := tget (fun _ => 0) s.netSlots (2 + nd)
  (dutyOpen (s.level 2 nd) n, { s with netSlots := tset (fun _ => 0) s.netSlots (2 + nd) (n + 1) })

/-! ### Raising and lowering (R36, R39) -/

/-- A governor interrupt when a status bit goes from 0 to 1 (R46): `bit` of PWR_STATUS under `en` of PWR_INT_EN. -/
def State.pwrFlag (s : State) (bit en : Nat) : State :=
  if flag (s.reg 0x10010) bit then s
  else
    let s := s.putBit 0x10010 bit true
    if flag (s.reg 0x1001C) en then s.moduleInt 768 else s

/-- THROTTLED follows the levels, with its interrupt (R46). -/
def State.syncThrottled (s : State) : State :=
  if (s.reg 0x1000C).toNat = 0 then s.putBit 0x10010 0 false else s.pwrFlag 0 0

/-- Both instances of a class raised by 1 where they stand below a bound. -/
def State.raiseClass (s : State) (c bound : Nat) : State :=
  let s := if s.level c 0 < bound then s.setLevel c 0 (s.level c 0 + 1) else s
  if s.level c 1 < bound then s.setLevel c 1 (s.level c 1 + 1) else s

/-- The first class of an order with an instance below a bound. -/
def State.cuttable (s : State) (bound : Nat → Nat) (order : List Nat) : Option Nat :=
  order.find? fun c => decide (s.level c 0 < bound c) || decide (s.level c 1 < bound c)

/-- A list with its first element moved to the end. -/
def rotate1 {α : Type} : List α → List α
  | [] => []
  | a :: r => r ++ [a]

/-- One single level raise of `cut` (R36): past the limits PAST_LIMIT is set (R46); under BALANCED the order rotates. Only
such a raise sets PAST_LIMIT, not the clamp of R38 or the raise of R39. [log 155: DESIGN CHOICE] -/
def State.cut1 (s : State) : State :=
  let rot (s : State) : State :=
    if s.power.profile = 0 then { s with power := { s.power with order := rotate1 s.power.order } } else s
  match s.cuttable (profileLimit s.power.profile) s.power.order with
  | some c => rot (s.raiseClass c (profileLimit s.power.profile c))
  | none => match s.cuttable (fun _ => 15) s.power.order with
    | some c => rot ((s.raiseClass c 15).putBit 0x10010 3 true)
    | none => s

/-- `cut(n)` of R36. -/
def State.cut (s : State) : Nat → State
  | 0 => s
  | n + 1 => s.cut1.cut n

/-- Whether R39 holds a die hot. -/
def State.hotDie (s : State) (d : Nat) : Bool := s.power.hot.getD d false

/-- Whether an instance may be restored: above 0, on a die R39 lets restore. [log 138: DEDUCED] -/
def State.restorable (s : State) (c i : Nat) : Bool := decide (0 < s.level c i) && !s.hotDie (classDie c i)

/-- `restore(1)` of R36. -/
def State.restoreOne (s : State) : State :=
  match s.power.order.reverse.find? fun c => s.restorable c 0 || s.restorable c 1 with
  | some c =>
    let r0 := s.restorable c 0
    let r1 := s.restorable c 1
    let s := if r0 then s.setLevel c 0 (s.level c 0 - 1) else s
    if r1 then s.setLevel c 1 (s.level c 1 - 1) else s
  | none => s

/-- The raise of R39: every class of a hot die goes up one level. -/
def State.thermalRaise (s : State) : State :=
  [(0, 0), (0, 1), (1, 0), (1, 1), (2, 0), (2, 1)].foldl (fun s (c, i) =>
    if s.hotDie (classDie c i) ∧ s.level c i < 15 then s.setLevel c i (s.level c i + 1) else s) s

/-- The profile and cap registers take effect (R41); a changed profile starts its own cut order. -/
def State.applyPower (s : State) : State :=
  let p := field (s.reg 0x10000) 1 0
  { s with power := { s.power with
      cap := field (s.reg 0x10004) 10 0
      profile := p
      order := if p = s.power.profile then s.power.order else profileOrder p } }

/-! ### Samples and steps -/

/-- Whether the load rails are on: the governor works. -/
def State.powered (s : State) : Bool :=
  match s.mode with
  | .off => false | .tripped => false | _ => true

/-- The temperatures of a sample as a list in die order. -/
def tempList (t : Temps) : List Nat := [t.cd0, t.cd1, t.nd0, t.nd1]

/-- Hysteresis of R39: hot from 95 °C on, until below 93 °C. [log 138: DEDUCED] -/
def hotNext (was : Bool) (t : Nat) : Bool := if 95 ≤ t then true else if t < 93 then false else was

/-- One 1 µs sample: the readings are shown (R46), R39's hysteresis and THERMAL follow the temperatures, and a sample
above the cap by more than 100 W clamps both compute levels to at least 8 (R38). -/
def State.sample (s : State) (watts tenthVolts : Nat) (temps : Temps) : State :=
  let s := s.putReg 0x10008 25 16 (min tenthVolts 1023)
  let s := s.setReg 0x10014 (BitVec.ofNat 64 (leNat ((tempList temps).map fun t => BitVec.ofNat 8 (min t 255))))
  let s := { s with power := { s.power with
    samples := s.power.samples.drop (s.power.samples.length - 9) ++ [watts]
    hot := (s.power.hot.zip (tempList temps)).map fun (h, t) => hotNext h t } }
  let s := if (tempList temps).any (fun t => decide (95 ≤ t)) then s.pwrFlag 2 2 else s
  if s.power.cap + 100 < watts then
    let s := s.setLevel 0 0 (max 8 (s.level 0 0))
    let s := s.setLevel 0 1 (max 8 (s.level 0 1))
    (s.pwrFlag 1 1).syncThrottled
  else s

/-- The mean of a step's samples as PWR_INPUT shows it: whole watts; where the mean is no whole number, which of the
two neighbours is shown is a free value. [log 14: DESIGN CHOICE] -/
def State.showMean (s : State) (sum : Nat) : State :=
  let (f, s') := s.draw
  if sum % 10 = 0 then s.putReg 0x10008 10 0 (min (sum / 10) 2047)
  else s'.putReg 0x10008 10 0 (min (sum / 10 + f.toNat % 2) 2047)

/-- One 10 µs step (R36): pending writes take effect (R41), hot dies are raised (R39) before the mean of the ten samples
cuts, or counts towards a restore, which the RESTORE command performs. PWR_CUT_COUNT counts the steps that cut, those that
found no class with room among them, and not the raise of R39. [log 154: DESIGN CHOICE] [log 156: DESIGN CHOICE] -/
def State.governorStep (s : State) : State :=
  let sum := s.power.samples.sum
  let s := (s.applyPower.showMean sum).thermalRaise
  let cap := s.power.cap
  let s :=
    if 10 * cap < sum then (s.cut 2).count 0x10018 1
    else if 10 * (cap - 25) < sum then (s.cut 1).count 0x10018 1
    else if 10 ≤ s.power.lowSteps then
      { s with power := { s.power with restoreDue := true, lowSteps := 0 } }
    else s
  let s := { s with power := { s.power with
    lowSteps := if sum < 10 * (cap - 60) then s.power.lowSteps + 1 else 0, samples := [] } }
  s.syncThrottled

/-- GOVERNOR_SAMPLE (R36, R38, R39). -/
def execGovernorSample (watts tenthVolts : Nat) (temps : Temps) (s : State) : Host.Outcome State Fault Refusal :=
  .next (if s.powered then s.sample watts tenthVolts temps else s)

/-- GOVERNOR_STEP (R36): once ten samples have been taken. -/
def execGovernorStep (s : State) : Host.Outcome State Fault Refusal :=
  .next (if s.powered && s.power.samples.length == 10 then s.governorStep else s)

/-- RESTORE (R36): performs the restore that ten low steps have made due. -/
def execRestore (s : State) : Host.Outcome State Fault Refusal :=
  .next (if s.power.restoreDue then
      ({ s with power := { s.power with restoreDue := false } }).restoreOne.syncThrottled
    else s)

/-! ### Seams -/

/-- SEAM_REPLAY (R22, R48): a flit with a CRC error is replayed and counted; a lane that keeps failing forces a
retrain, which takes a full reset, so the seam is noted for it. [log 131: DEDUCED] -/
def execSeamReplay (seam : Fin 4) (keepsFailing : Bool) (s : State) : Host.Outcome State Fault Refusal :=
  .next (if flag (s.reg (seamReg seam 0)) 0 then
      let s := s.count (seamReg seam 8) 1
      if keepsFailing ∧ seam.val ∉ s.seamRetrain then { s with seamRetrain := s.seamRetrain ++ [seam.val] } else s
    else s)

end Sys2Proof.Machine
end

