-- ==== Sys2Proof/Machine/Memory.lean ====
section
/-! DEFINITION. Near-memory controllers, bandwidth regulators and the far tier (R272 to R297). -/
namespace Sys2Proof.Machine

/-! ### Controllers (R277 to R281, R294) -/

/-- A stack that works: trained, on a die in service. -/
def State.stackOn (s : State) (st : Nat) : Bool := flag (s.reg (stackReg st 0)) 0 && !s.dieLost (st / 4)

/-- What the error-correcting code finds in a sector at an access: an error that has struck it since its last write;
an uncorrectable sector stays so (R279, R280). -/
def State.upset (s : State) (a : Nat) (e : Ecc) : State :=
  if e = .clean ∨ s.eccAt a = .uncorrectable then s else s.setEcc a e

/-- HBM_SECTOR_ACCESS (R277 to R280): a controller reads a line or a sector, or writes bytes inside one line. -/
def execHbmSectorAccess (addr : NearAddr) (acc : HbmAccess) (ecc : Ecc) (s : State) : Host.Outcome State Fault Refusal :=
  if !(Instr.wf (.hbmSectorAccess addr acc ecc)) then .fault .illFormed
  else .next (if !s.stackOn (s.stackOf addr) then s
    else
      let s := s.upset addr ecc
      match acc with
      | .readLine => (s.nearRead (addr / 64 * 64) 64 0).2
      | .readSector => (s.nearRead (addr / 32 * 32) 32 0).2
      | .write bs => (s.holdsEnd addr bs.length).nearWrite addr bs)

/-- PATROL_SCRUB (R281): the scrubber reads a sector, unless MEM_SCRUB_CFG turns it off. -/
def execPatrolScrub (addr : NearAddr) (ecc : Ecc) (s : State) : Host.Outcome State Fault Refusal :=
  let st := s.stackOf addr
  .next (if s.stackOn st ∧ field (s.reg (stackReg st 0x18)) 7 0 ≠ 0 then
      ((s.upset addr ecc).nearRead (addr / 32 * 32) 32 1).2
    else s)

/-- STACK_TEMP_SAMPLE (R272, R294). -/
def execStackTempSample (stack : Fin 8) (celsius : Nat) (s : State) : Host.Outcome State Fault Refusal :=
  .next (if s.stackOn stack then s.putReg (stackReg stack 0) 16 9 (min celsius 255) else s)

/-! ### Regulators (R287, R288, R295) -/

/-- RATE, the bucket in 1/256 byte, SHARE and EN of a regulator. -/
def State.regRate (s : State) (cd p : Nat) : Nat := field (s.reg (memReg cd p 0)) 13 0
def State.regBucket (s : State) (cd p : Nat) : Int := (field (s.reg (memReg cd p 0)) 23 14 * 1024 * 256 : Nat)
def State.regShare (s : State) (cd p : Nat) : Bool := flag (s.reg (memReg cd p 0)) 24
def State.regEn (s : State) (cd p : Nat) : Bool := flag (s.reg (memReg cd p 0)) 25

/-- Tokens of a regulator, in 1/256 byte. -/
def State.token (s : State) (cd p : Nat) : Int := tget (fun _ => 0) s.tokens (cd * 16 + p)

/-- Tokens written. -/
def State.setToken (s : State) (cd p : Nat) (v : Int) : State :=
  { s with tokens := tset (fun _ => 0) s.tokens (cd * 16 + p) v }

/-- A partition is eligible while it is not regulated or has tokens (R287). -/
def State.eligible (s : State) (cd p : Nat) : Bool := !s.regEn cd p || decide (0 < s.token cd p)

/-- One MCLK of one regulator (R287): rate / 1.2 bytes, scaled by the memory duty, up to the bucket. In 1/256 byte the
accrual is rate × (16 − L) × 40 / 3; which neighbour a fraction takes is a free value. [log 17: DESIGN CHOICE] -/
def State.accrue (s : State) (cd p : Nat) : State :=
  let n := s.regRate cd p * (16 - s.level 1 cd) * 40
  let (f, s') := s.draw
  let s1 := if n % 3 = 0 then s else s'
  let add : Int := if n % 3 = 0 then (n / 3 : Nat) else (n / 3 + f.toNat % 2 : Nat)
  s1.setToken cd p (min (s.token cd p + add) (s.regBucket cd p))

/-- A grant of b bytes to a partition: counted, and debited unless it is a shared grant (R287, R288, R295). -/
def State.grant (s : State) (cd p b : Nat) (shared : Bool) : State :=
  let s := s.count64 (memReg cd p 8) b
  if s.regEn cd p && !shared then s.setToken cd p (s.token cd p - (256 * b : Nat)) else s

/-- A write of MEM_REG_CFG at its offset (R288, R295): RATE and BURST clamped, tokens cut to the new bucket. -/
def State.writeMemReg (s : State) (o v : Nat) : State :=
  let share := bitN v 24
  let rate := min (bitsN v 13 0) 9830
  let rate := if rate = 0 ∧ share = false then 1 else rate
  let burst := max 1 (bitsN v 23 14)
  let cd := (o - 0x52000) / 0x200
  let p := (o - 0x52000) % 0x200 / 0x20
  let s := s.setReg o (BitVec.ofNat 64 (rate + burst * 2 ^ 14 + bit1 share 24 + bit1 (bitN v 25) 25))
  s.setToken cd p (min (s.token cd p) (s.regBucket cd p))

/-- MEM_REG_CFG_WRITE (R295). -/
def execMemRegCfgWrite (path : Path) (cd : Fin 2) (part : Fin 16) (v : BitVec 32) (s : State) :
    Host.Outcome State Fault Refusal :=
  .next (s.kernelWrite path (memReg cd part 0) fun o s => s.writeMemReg o v.toNat)

/-- MEM_PART_MAP_WRITE (R296): bits of requesters above 165 are reserved. [log 25: DESIGN CHOICE] -/
def execMemPartMapWrite (path : Path) (j : Fin 21) (v : BitVec 32) (s : State) : Host.Outcome State Fault Refusal :=
  .next (s.kernelWrite path (0x54000 + 4 * j.val) fun o s =>
    s.setReg o (BitVec.ofNat 64 (if j.val = 20 then v.toNat % 2 ^ 24 else v.toNat)))

/-! ### The far tier (R289 to R293) -/

/-- LINK_UP of a CXL port whose die is in service. -/
def State.cxlUp (s : State) (p : Nat) : Bool := flag (s.reg (cxlReg p 0)) 0 && !s.dieLost (2 + p / 2)

/-- A line request of a requester joins a port's: it is transmitted unless an earlier one to its line has not completed
(R292). -/
def State.cxlAsk (s : State) (p line : Nat) (wr : Option (List (Fin 64 × Byte))) (own : Option BurstId) : State :=
  let l := s.cxlReqs p
  s.setCxl p (l ++ [⟨line, wr, !l.any fun r => r.line == line, own⟩])

/-- CXL_REQUEST (R292): a line request of a requester other than a channel is transmitted unless an earlier request to its
line has not completed; on a port that is down it completes with BUS at once (R293). -/
def execCxlRequest (port : Fin 4) (line : FarLine) (wr : Option (List (Fin 64 × Byte))) (s : State) :
    Host.Outcome State Fault Refusal :=
  .next (if s.cxlUp port && decide (64 * line < s.farCap port) then
      s.cxlAsk port line wr none
    else s)

/-- The descriptor of a burst. -/
def State.burstDesc (s : State) (b : BurstId) : Option Desc := (s.chan b.ch).flight.find? fun d => d.id == b.desc

/-- A far burst whose last line has completed, with an error, is answered to its descriptor (R293). -/
def State.farFailed (s : State) (own : Option BurstId) : State :=
  match own with
  | none => s
  | some b =>
    let bad := fun (f : FarBurst) => f.lines.isEmpty && f.status != .ok
    match (s.burstDesc b).bind fun d => d.far.find? bad with
    | none => s
    | some f => (s.updBurst b fun d => { d with far := d.far.erase f }).burstAnswered
        { b with addr := f.burst.src } f.status false

/-- A request of a port completes with an error (R293): its requester hears it. -/
def State.cxlError (s : State) (p : Nat) (r : CxlReq) (st : Status) : State :=
  match r.own, r.wr with
  | some b, some _ => s.burstError { b with addr := s.relAddr (lineAddr p r.line) } st true
  | own, _ => (s.farHeard own (lineAddr p r.line / 64) st []).farFailed own

/-- CXL_COMPLETION (R292, R293): the response to the request transmitted for a line. A read brings what the target
holds; poison makes the line uncorrectable for its consumer, which completes with MEM_UE, and is counted. -/
def execCxlCompletion (port : Fin 4) (line : FarLine) (poison : Bool) (bytes : List Byte) (s : State) :
    Host.Outcome State Fault Refusal :=
  let a := lineAddr port line
  if !(Instr.wf (.cxlCompletion port line poison bytes)) then .fault .illFormed
  else .next (match (s.cxlReqs port).find? fun (r : CxlReq) => r.line == line.val with
    | none => s
    | some r =>
      if r.wr.isSome then s.cxlDone port r
      else if poison then
        let s := (s.setCxl port (cxlNext line (s.cxlReqs port))).count64 (cxlReg port 0x28) 64
        let s := ((s.setEcc a .uncorrectable).count (cxlReg port 0x14) 1).setReg (cxlReg port 0x20)
          (BitVec.ofNat 64 (s.relAddr a))
        s.cxlError port r .memUe
      else ((s.store a bytes).setEcc a .clean).cxlDone port r)

/-- CXL_TIMEOUT_EXPIRY (R293): the request completes with BUS to its consumer; whether a write reached its target is a free
value. -/
def execCxlTimeoutExpiry (port : Fin 4) (line : FarLine) (s : State) : Host.Outcome State Fault Refusal :=
  .next (match (s.cxlReqs port).find? fun (r : CxlReq) => r.line == line.val with
    | none => s
    | some r =>
      let s := (s.setCxl port (cxlNext line (s.cxlReqs port))).count (cxlReg port 0x18) 1
      let s := match r.wr with
        | none => s
        | some bs =>
          let (f, s) := s.draw
          if f.toNat % 2 = 1 then s.cxlStore (lineAddr port line) bs else s
      s.cxlError port r .bus)

/-- A CXL port's link is down (R293, R297): DOWN_SEEN is set where it was up. [log 62: DEDUCED] -/
def State.cxlDown (s : State) (p : Nat) : State :=
  if flag (s.reg (cxlReg p 0)) 0 then
    ((s.putBit (cxlReg p 0) 0 false).putReg (cxlReg p 0) 7 6 0).putBit (cxlReg p 0) 12 true
  else s

/-- A CXL port goes down: every outstanding request completes with BUS to its consumer (R293). -/
def State.cxlLose (s : State) (p : Nat) : State :=
  (s.cxlReqs p).foldl (fun s r => s.cxlError p r .bus) ((s.setCxl p []).cxlDown p)

/-- DL_DOWN (R293): every request completes with BUS, and the port stays down until a full reset. -/
def execDlDown (port : Fin 4) (s : State) : Host.Outcome State Fault Refusal :=
  .next (if s.cxlUp port then s.cxlLose port else s)

/-- CXL_LINK_RECOVERY (R293): no effect beyond delay. -/
def execCxlLinkRecovery (_port : Fin 4) (s : State) : Host.Outcome State Fault Refusal := .next s

end Sys2Proof.Machine
end

