-- ==== Sys2Proof/Machine/Adders.lean ====
section
/-! DEFINITION. The memory-side adders (R282 to R285): element adds sector by sector, and A128 tile adds. -/
namespace Sys2Proof.Machine

/-- Bytes of an element of an add's format (R256, R283). -/
def afmtSize (afmt : Nat) : Nat :=
  match afmt with
  | 2 => 2 | 4 => 8 | _ => 4

/-- The sum of two elements in a format (R283), as codes. -/
def addCodes (afmt a b : Nat) : Nat :=
  match afmt with
  | 1 => (convElem 8 false .rne ((decodeElem 8 a).add (decodeElem 8 b)).toQ).code
  | 2 => (convElem 6 false .rne ((decodeElem 6 a).add (decodeElem 6 b)).toQ).code
  | 3 => (a + b) % 2 ^ 32
  | _ => (a + b) % 2 ^ 64

/-- Elements added into the n bytes at an address. -/
def State.addBytes (s : State) (afmt a : Nat) (bs : List Byte) : List Byte :=
  let k := afmtSize afmt
  ((List.range (bs.length / k)).map fun i =>
    natLe k (addCodes afmt (s.num (a + k * i) k) (bytesN bs (k * i + k - 1) (k * i)))).flatten

/-- Bytes of a run from an address that lie in its first sector. -/
def sectorPart (a : Nat) (bs : List Byte) : Nat := min bs.length (32 - a % 32)

/-- One indivisible read-add-write of a sector (R283): whether its sector was uncorrectable, which leaves it
unchanged (R285). A sector that the code corrects is written back corrected. -/
def State.addSector (s : State) (afmt a : Nat) (bs : List Byte) : Bool × State :=
  let (bad, s) := s.nearRead (a / 32 * 32) 32 2
  if bad then (true, s)
  else (false, (s.store a (s.addBytes afmt a bs)).count64 (stackReg (s.stackOf a) 0x20) 1)

/-- ELEMENT_ADD (R283, R285): the adder performs the next sector of its oldest burst; an uncorrectable sector ends the
burst with MEM_UE, and its last sector answers it. An add into a held range waits until the hold ends. -/
def execElementAdd (stack : Fin 8) (s : State) : Host.Outcome State Fault Refusal :=
  let x := s.stack stack
  .next (match x.elems with
    | [] => s
    | e :: rest =>
      if !s.stackOn stack then s
      else
        let n := sectorPart e.addr e.bytes
        let (bad, s) := (s.holdsEnd e.addr n).addSector e.afmt e.addr (e.bytes.take n)
        let x := s.stack stack
        if bad then (s.setStack stack { x with elems := rest }).addAnswered e.own .memUe
        else if n < e.bytes.length then
          s.setStack stack { x with elems := { e with addr := e.addr + n, bytes := e.bytes.drop n } :: rest }
        else (s.setStack stack { x with elems := rest }).addAnswered e.own .ok)

/-- The offset of the first sector of n bytes at a near-memory address that is uncorrectable. -/
def State.firstBad (s : State) (a n : Nat) : Nat :=
  (s.ecc.filter fun e => e.2 == .uncorrectable && decide (a < e.1 + 32) && decide (e.1 < a + n)).foldl
    (fun m e => min m (e.1 - a)) n

/-- The accesses that the adder of a stack makes to the granules of n bytes at an address that lie in other stacks: a read
and a write of each (R284, R299). -/
def State.subTraffic (s : State) (idx stack a n : Nat) : State :=
  (pieces (n / 4096 * 16 + 32) a n).foldl (fun s (p : Nat × Nat) =>
    if s.stackOf p.1 = stack then s else (s.sendSub idx stack p.1 p.2 true).sendSub idx stack p.1 p.2 false) s

/-- The adder of a stack takes its next tile add (R284, R285): an uncorrectable header keeps it from starting; an
uncorrectable sector elsewhere ends it there, with the elements before it written and the header not; a granule it cannot
reach ends it before anything is written. Else the elements and tags are added, and the range is held until the header is
written. The status is none where the add goes on. [log 153: DESIGN CHOICE] -/
def State.memoryTake (s : State) (stack : Nat) (a : TileAdd) : Option Status × State :=
  let dst := a.burst.dst
  let r := s.reachAll (stack / 4) dst tileBytes
  if r != .ok then (some r, s)
  else
    let s := (s.holdsEnd dst tileBytes).subTraffic (chanSrc a.own.ch).idx stack dst 0x10400
    let (bad, s) := s.nearRead (dst + 0x10400) 64 2
    if bad then (some .memUe, s)
    else
      let o := tileAdd (fun i => s.byte (dst + i)) (fun i => tget memDefault a.src i)
      let stop := s.firstBad dst 0x10400
      let (bad, s) := s.nearRead dst 0x10400 2
      let s := (o.writes.filter fun (w : Nat × List Byte) => decide (w.1 + w.2.length ≤ stop)).foldl
        (fun s (w : Nat × List Byte) => s.store (dst + w.1) w.2) s
      if bad then (some .memUe, s)
      else (none, s.setStack stack { s.stack stack with run := some ⟨dst, o.header, a.own, o.status⟩ })

/-- MEMORY_TILE_ADD (R284): a running tile add ends with its header write; else the adder takes its oldest tile add. The
adder runs one at a time; element adds of other ranges go on between the two. [log 153: DESIGN CHOICE] -/
def execMemoryTileAdd (stack : Fin 8) (s : State) : Host.Outcome State Fault Refusal :=
  let x := s.stack stack
  .next (if !s.stackOn stack then s
    else if x.run.isSome then s.tileAddDone stack
    else match x.tiles with
      | [] => s
      | a :: rest =>
        match (s.setStack stack { x with tiles := rest }).memoryTake stack a with
        | (some st, s) => s.burstAnswered a.own st true
        | (none, s) => s)

end Sys2Proof.Machine
end

