-- ==== Sys2Proof/Machine/Fabric.lean ====
section
/-! DEFINITION. The package fabric: weighted and round-robin arbiters, credits and their error checks
(R286 to R288, R295, R298 to R309, R317, R318). -/
namespace Sys2Proof.Machine

/-! ### Where an arbiter's state stands -/

/-- A kind of arbiter as a number. -/
def arbNum : ArbKind → Nat
  | .tileEgress => 0 | .islandUplink => 1 | .moverUplink => 2 | .islandDownlink => 3 | .hbmController => 4
  | .seamRole => 5 | .seam3 => 6 | .netCrossbar => 7

/-- A class as a number, in the order of GLB_FAB_WAIT_MAX (R318). -/
def clsNum : FabClass → Nat
  | .req => 0 | .sub => 1 | .rsp => 2 | .col => 3

/-- The key of an arbiter output in one class. -/
def arbKey (die : Die) (kind : ArbKind) (idx : Nat) (cls : FabClass) : Nat :=
  ((idx * 8 + arbNum kind) * 4 + dieNum die) * 4 + clsNum cls

/-- The link an output feeds, in the numbering of CREDIT_RETURN. -/
def arbLink (kind : ArbKind) (idx : Nat) : Nat := idx * 8 + arbNum kind

/-- The key of a link's credits in one class. -/
def creditKey (die : Die) (link : Nat) (cls : FabClass) : Nat := (link * 4 + dieNum die) * 4 + clsNum cls

/-- The age limit A of R306. -/
def ageLimit : ArbKind → Nat
  | .tileEgress => 5 | .islandUplink => 8 | .moverUplink => 16 | _ => 167

/-- Whether an output is weighted under R304 (R305). -/
def weighted (kind : ArbKind) (cls : FabClass) : Bool :=
  match cls with
  | .req | .sub => kind != .tileEgress
  | _ => false

/-! ### The heads (R300, R303) -/

/-- A packet at the head of an input's queue for one output and class: its place in the fabric, the input, ACTIVE as it
arrived, and its partition. -/
structure FabHead where
  place  : Nat
  input  : Nat
  active : Nat
  part   : Option Nat
  deriving DecidableEq, Repr

/-- The input by which a packet waits at an output. -/
def FabPkt.waitsAt (p : FabPkt) (die : Die) (kind : ArbKind) (idx : Nat) : Option Nat :=
  match p.path with
  | h :: _ => if h.die = die ∧ h.kind = kind ∧ h.idx = idx then some h.input else none
  | [] => none

/-- The first packet of each input for an output in a class, in the order in which they reached it: every input keeps a
queue of its own for each class and output (R300). `seen` are the inputs met so far. -/
def headsOf (die : Die) (kind : ArbKind) (idx : Nat) (cls : FabClass) : List Nat → List (FabPkt × Nat) → List FabHead
  | _, [] => []
  | seen, (p, n) :: r =>
    match p.waitsAt die kind idx with
    | some i =>
      if p.cls = cls ∧ i ∉ seen then ⟨n, i, p.active, p.part⟩ :: headsOf die kind idx cls (i :: seen) r
      else headsOf die kind idx cls seen r
    | none => headsOf die kind idx cls seen r

/-- The same, of the packets in the fabric. -/
def State.heads (s : State) (die : Die) (kind : ArbKind) (idx : Nat) (cls : FabClass) : List FabHead :=
  headsOf die kind idx cls [] s.fab.zipIdx

/-! ### The choice (R304, R305) -/

/-- The credit of an input. -/
def Arb.cr (a : Arb) (i : Nat) : Int := tget (fun _ => 0) a.credit i

/-- Grants that the head of an input has waited. -/
def Arb.wait (a : Arb) (i : Nat) : Nat := tget (fun _ => 0) a.waited i

/-- The head with the largest credit after adding the weights; the lowest input on a tie. -/
def richest (a : Arb) : List FabHead → Option FabHead
  | [] => none
  | h :: r => match richest a r with
    | none => some h
    | some g =>
      let ch := a.cr h.input + h.active
      let cg := a.cr g.input + g.active
      if cg < ch ∨ (cg = ch ∧ h.input < g.input) then some h else some g

/-- The next input after `last` in a round, among those that wait. -/
def nextRound (last : Nat) (ws : List FabHead) : Option FabHead :=
  let least := fun (l : List FabHead) => l.foldl (fun (m : Option FabHead) h => match m with
    | none => some h
    | some g => if h.input < g.input then some h else some g) none
  firstSome (least (ws.filter fun h => decide (last < h.input))) (least ws)

/-- The heads that have waited the age limit (R304). -/
def agedHeads (kind : ArbKind) (a : Arb) (ws : List FabHead) : List FabHead :=
  ws.filter fun h => decide (ageLimit kind ≤ a.wait h.input)

/-- The head that is granted among those that may be, and whether the age rule chose it (R304, R305): `ws` stands in the
order of arrival. -/
def choose (kind : ArbKind) (cls : FabClass) (a : Arb) (ws : List FabHead) : Option (FabHead × Bool) :=
  if weighted kind cls then
    match agedHeads kind a ws with
    | h :: _ => some (h, true)
    | [] => (richest a ws).map fun h => (h, false)
  else (nextRound a.last ws).map fun h => (h, false)

/-- Credits after a grant (R304): after a weighted one every head that might be granted gains its weight, and the winner of
the weights pays their sum; an input with nothing waiting is held at 0. -/
def creditsAfter (a : Arb) (heads ws : List FabHead) (pays : Option Nat) : Table Int :=
  let sum : Nat := (ws.map fun h => h.active).sum
  heads.foldl (fun t h =>
    let c := a.cr h.input
    let c := if pays.isSome && ws.any (fun w => w.input == h.input) then c + h.active else c
    tset (fun _ => 0) t h.input (if pays = some h.input then c - sum else c)) []

/-- Grants waited after a grant to `g`: each other head has waited one more. -/
def waitsAfter (a : Arb) (heads : List FabHead) (g : Option Nat) : Table Nat :=
  heads.foldl (fun t h => tset (fun _ => 0) t h.input
    (if g = some h.input then 0 else if g.isSome then a.wait h.input + 1 else a.wait h.input)) []

/-- The class that an output serves next, of those that are ready, in round robin after the one it served last (R301). -/
def classTurn (kind : ArbKind) (last : Nat) (ready : FabClass → Bool) : Option FabClass :=
  firstSome (kind.classes.find? fun c => decide (last ≤ clsNum c) && ready c) (kind.classes.find? ready)

/-- What an arbiter writes into the ACTIVE of the packet it grants (R303, R305): the sum of the weights of the heads for
the output, capped at 255; a tile's egress writes 1; a round-robin class keeps it. -/
def activeAfter (kind : ArbKind) (cls : FabClass) (heads : List FabHead) (active : Nat) : Nat :=
  if kind = .tileEgress then 1
  else if weighted kind cls then min 255 ((heads.map fun h => h.active).sum)
  else active

/-- The longest waits of a die (R318): the field of a class takes a longer wait, saturating at 0xFFFF. -/
def State.waitMax (s : State) (die : Nat) (cls : FabClass) (n : Nat) : State :=
  let o := fabReg die 8
  let lo := 16 * clsNum cls
  if field (s.reg o) (lo + 15) lo < n then s.putReg o (lo + 15) lo (min n 0xFFFF) else s

/-- A hardware error of the fabric (R317): its flag, the count and the interrupt. -/
def State.fabError (s : State) (die bit : Nat) : State :=
  ((s.putBit (fabReg die 0) bit true).count (fabReg die 0x24) 1).moduleInt 777

/-- Credits that a sender has given out on a link beyond those it holds at rest: at most 0 (R300). -/
def State.linkCredit (s : State) (k : Nat) : Int := tget (fun _ => 0) s.credits k

/-- Credits of a link written. -/
def State.setLinkCredit (s : State) (k : Nat) (v : Int) : State := { s with credits := tset (fun _ => 0) s.credits k v }

/-- Whether a sender holds a credit for a class at the receiver of a link (R300): it has sent no more packets than the
receiver can hold. [log 151: DESIGN CHOICE] -/
def State.hasCredit (s : State) (k : Nat) : Bool := decide ((-(s.linkCredit k)).toNat ≤ Config.linkSlots k)

/-- A credit count of a die's link changes; one that leaves its range is a hardware error (R317). -/
def State.moveCredit (s : State) (die k : Nat) (by_ : Int) : State :=
  let c := s.linkCredit k + by_
  let s := s.setLinkCredit k c
  if 0 < c ∨ Config.linkSlots k + 1 < (-c).toNat then s.fabError die 1 else s

/-- A packet reaches its target, which answers a request on the class RSP (R299, R311); a response and a chunk cause no
more packets here. -/
def State.arrive (s : State) (p : FabPkt) : State :=
  if p.back = [] then s
  else { s with fab := s.fab ++ [{ p with cls := .rsp, read := false, part := none, path := p.back, back := [] }] }

/-- A packet comes to the output that stands first on its path; one over a seam fenced for a lost die is answered there with
DIE_LOST, which FENCE_DRAIN shows (R316, R447). -/
def State.comeTo (s : State) (p : FabPkt) : State :=
  if s.fencedOff p then
    let s := { s with fab := s.fab ++ p.answer }
    match p.path with
    | h :: _ => s.putBit (fabReg (dieNum h.die) 0) 3 true
    | [] => s
  else { s with fab := s.fab ++ [p] }

/-- The packet at a place passes the output it waits at. -/
def State.passOn (s : State) (place active : Nat) : State :=
  match s.fab[place]? with
  | none => s
  | some p =>
    let s := { s with fab := s.fab.eraseIdx place }
    match p.path with
    | _ :: h :: r => s.comeTo { p with path := h :: r, active := active }
    | _ => s.arrive p

/-- An arbiter's record of a turn in a class (R304, R305, R318): credits, waits, the position of the round, the longest wait
and the grants by age. Without a grant an input with nothing waiting is held at credit 0 all the same. -/
def State.arbTurn (s : State) (die : Die) (kind : ArbKind) (idx : Nat) (cls : FabClass) (heads ws : List FabHead)
    (pick : Option (FabHead × Bool)) : State :=
  let d := dieNum die
  let k := arbKey die kind idx cls
  let a := tget (fun _ => Arb.reset) s.arbs k
  let g := pick.map fun p => p.1.input
  let byAge := (pick.map fun p => p.2).getD false
  let pays := if weighted kind cls && !byAge then g else none
  let a' : Arb := { credit := creditsAfter a heads ws pays, waited := waitsAfter a heads g, last := g.getD a.last }
  let s := { s with arbs := tset (fun _ => Arb.reset) s.arbs k a' }
  if g.isNone then s
  else
    let longest := heads.foldl (fun m h => max m (a.wait h.input + (if g = some h.input then 0 else 1))) 0
    let s := if weighted kind cls || cls == .rsp || (cls == .col && decide (2 ≤ d)) then s.waitMax d cls longest else s
    if byAge then (s.putBit (fabReg d 0) 2 true).count64 (fabReg d 0x10) 1 else s

/-- The class an output served last. -/
def State.lastClass (s : State) (die : Die) (kind : ArbKind) (idx : Nat) : Nat :=
  tget (fun _ => 0) s.turns (arbKey die kind idx .req)

/-- An output has served a class. -/
def State.served (s : State) (die : Die) (kind : ArbKind) (idx : Nat) (cls : FabClass) : State :=
  { s with turns := tset (fun _ => 0) s.turns (arbKey die kind idx .req) (clsNum cls + 1) }

/-- Grants of a controller in this MCLK. -/
def State.mgrant (s : State) (st : Nat) : Nat := tget (fun _ => 0) s.mgrants st

/-- A head's request may be granted while its partition is eligible (R287, R308). -/
def State.headEligible (s : State) (cd : Nat) (h : FabHead) : Bool :=
  match h.part with
  | some p => s.eligible cd p
  | none => true

/-- A head's partition takes shared grants (R288). -/
def State.headShares (s : State) (cd : Nat) (h : FabHead) : Bool :=
  match h.part with
  | some p => s.regShare cd p
  | none => false

/-- A line or sector request of the packet at a place is granted by its controller (R287, R306): debited, and the packet has
arrived with its last one. -/
def State.lineGranted (s : State) (cd st place : Nat) (shared : Bool) : State :=
  match s.fab[place]? with
  | none => s
  | some p =>
    let s := match p.part with
      | some q => s.grant cd q (if p.narrow then 32 else 64) shared
      | none => s
    let s := { s with mgrants := tset (fun _ => 0) s.mgrants st (s.mgrant st + 1) }
    if p.lines ≤ 1 then s.passOn place p.active
    else { s with fab := s.fab.set place { p with lines := p.lines - 1 } }

/-- A turn of a controller's arbiter (R287, R288, R301, R304, R308): one line or sector request of the eligible ones; with
none, one of a partition with SHARE. A controller grants 2 × (16 − L) requests in an MCLK at memory level L (R306, R309). -/
def State.controllerTurn (s : State) (st : Nat) : State :=
  let cd := st / 4
  let die := dieOf cd
  let heads := fun c => s.heads die .hbmController (st % 4) c
  let turn := fun (may : FabHead → Bool) => classTurn .hbmController (s.lastClass die .hbmController (st % 4))
    fun c => (heads c).any may
  if 2 * (16 - s.level 1 cd) ≤ s.mgrant st then s
  else
    let (may, shared) := if (turn (s.headEligible cd)).isSome then (s.headEligible cd, false) else (s.headShares cd, true)
    match turn may with
    | none => s
    | some c =>
      let ws := (heads c).filter may
      let pick := choose .hbmController c (tget (fun _ => Arb.reset) s.arbs (arbKey die .hbmController (st % 4) c)) ws
      let s := (s.arbTurn die .hbmController (st % 4) c (heads c) ws pick).served die .hbmController (st % 4) c
      match pick with
      | none => s
      | some (g, _) => s.lineGranted cd st g.place shared

/-- A turn of any other output (R300, R301, R303 to R305): of the classes that have a packet and a credit, the next in
round robin is granted one. Heads that wait only for a credit count the cycle. -/
def State.outputTurn (s : State) (die : Die) (kind : ArbKind) (idx : Nat) : State :=
  let d := dieNum die
  let heads := fun c => s.heads die kind idx c
  let key := fun c => creditKey die (arbLink kind idx) c
  let s := if kind.classes.any fun c => !(heads c).isEmpty && !s.hasCredit (key c) then s.count64 (fabReg d 0x18) 1 else s
  match classTurn kind (s.lastClass die kind idx) fun c => !(heads c).isEmpty && s.hasCredit (key c) with
  | none => kind.classes.foldl (fun s c => s.arbTurn die kind idx c (heads c) [] none) s
  | some c =>
    let pick := choose kind c (tget (fun _ => Arb.reset) s.arbs (arbKey die kind idx c)) (heads c)
    let s := (s.arbTurn die kind idx c (heads c) (heads c) pick).served die kind idx c
    match pick with
    | none => s
    | some (g, _) => (s.moveCredit d (key c) (-1)).passOn g.place (activeAfter kind c (heads c) g.active)

/-- What the fabric finds of itself at a turn (R317), both the signs of a faulty module: that the grant came after its bound,
and that the credit count was out of its range. -/
def State.fabChecks (s : State) (d : Nat) (late creditErr : Bool) : State :=
  let s := if late then s.fabError d 0 else s
  if creditErr then s.fabError d 1 else s

/-- ARBITER_GRANT (R300 to R306): one turn of an output; `late` and `creditErr` tell what the fabric's own check finds at it
(R317). [log 23: DESIGN CHOICE] -/
def execArbiterGrant (die : Die) (kind : ArbKind) (unit : Nat) (role : Fin 3) (late creditErr : Bool) (s : State) :
    Host.Outcome State Fault Refusal :=
  let d := dieNum die
  let idx := kind.output unit role
  if !(Instr.wf (.arbiterGrant die kind unit role late creditErr)) then .fault .illFormed
  else .next (if s.dieLost d then s
    else (if kind = .hbmController then s.controllerTurn (4 * d + idx) else s.outputTurn die kind idx).fabChecks d late creditErr)

/-- CONTROLLER_GRANT (R287, R288, R308); `late` tells that the grant came after the controller's bound (R317). -/
def execControllerGrant (stack : Fin 8) (late : Bool) (s : State) : Host.Outcome State Fault Refusal :=
  .next (if s.stackOn stack then (s.controllerTurn stack).fabChecks (stack / 4) late false else s)

/-- Whether a request of a partition waits ineligible at a controller of a compute die (R295). -/
def State.deferred (s : State) (cd p : Nat) : Bool :=
  !s.eligible cd p && [0, 1, 2, 3].any fun i => [FabClass.req, .sub].any fun c =>
    (s.heads (dieOf cd) .hbmController i c).any fun h => h.part == some p

/-- REGULATOR_TICK (R287, R295): one MCLK of a compute die's regulators: each accrues, a partition with a request that
waits ineligible counts the MCLK once, and the controllers may grant anew. [log 17: DESIGN CHOICE] -/
def execRegulatorTick (cd : Fin 2) (s : State) : Host.Outcome State Fault Refusal :=
  .next (if s.dieLost cd then s
    else
      let s := (List.range 16).foldl (fun s p => s.accrue cd p) s
      let s := (List.range 16).foldl (fun s p => if s.deferred cd p then s.count64 (memReg cd p 0x10) 1 else s) s
      { s with mgrants := s.mgrants.filter fun (e : Nat × Nat) => e.1 / 4 != cd.val })

/-- CREDIT_RETURN (R300): a receiver returns credits; more than it owes is a credit count out of range (R317).
[log 23: DESIGN CHOICE] -/
def execCreditReturn (die : Die) (link : Nat) (cls : FabClass) (n : Nat) (s : State) :
    Host.Outcome State Fault Refusal :=
  if !(Instr.wf (.creditReturn die link cls n)) then .fault .illFormed
  else .next (if s.dieLost (dieNum die) then s else s.moveCredit (dieNum die) (creditKey die link cls) (n : Nat))

end Sys2Proof.Machine
end

