-- ==== Sys2Proof/Machine/Wire.lean ====
section
/-! DEFINITION. What packets and frames are as bytes: the transport header and its zero segments, the native link header
with its check sequences, and the Ethernet encapsulation (R321, R324, R325, R337). -/
namespace Sys2Proof.Machine

/-! ### Check sequences (R321) -/

/-- The CRC-16 of the link header: polynomial 0x1021, initial value 0xFFFF, each byte from its highest bit.
[log 157: PRESUMED] -/
def crc16 (bs : List Byte) : Nat :=
  bs.foldl (fun c b => (List.range 8).foldl (fun c _ =>
    if 0x8000 ≤ c then (2 * c) % 0x10000 ^^^ 0x1021 else 2 * c) (c ^^^ (b.toNat * 256))) 0xFFFF

/-- The CRC-32 of IEEE 802.3. [log 157: PRESUMED] -/
def crc32 (bs : List Byte) : Nat :=
  (bs.foldl (fun c b => (List.range 8).foldl (fun c _ =>
    if c % 2 = 1 then (c / 2) ^^^ 0xEDB88320 else c / 2) (c ^^^ b.toNat)) 0xFFFFFFFF) ^^^ 0xFFFFFFFF

/-! ### Zero-segment elision (R337) -/

/-- Bytes of the 64-byte segment j of a payload. -/
def segment (bs : List Byte) (j : Nat) : List Byte := (bs.drop (64 * j)).take 64

/-- Segments of a payload of n bytes. -/
def segCount (n : Nat) : Nat := ceilDiv n 64

/-- The mask of the segments that are carried: those with a byte that is not zero. -/
def elideMaskOf (bs : List Byte) : BitVec 64 :=
  BitVec.ofNat 64 ((List.range (segCount bs.length)).foldl (fun m j =>
    if (segment bs j).any (· != 0) then m + 2 ^ j else m) 0)

/-- The segments of n bytes that a mask has. -/
def maskSegs (mask : BitVec 64) (n : Nat) : List Nat := (List.range (segCount n)).filter fun j => mask.toNat.testBit j

/-- Bytes of segment j of n. -/
def segLen (n j : Nat) : Nat := min 64 (n - 64 * j)

/-- The payload as it stands on the wire. -/
def wirePayload (p : Packet) : List Byte :=
  if p.elided then ((maskSegs p.elideMask p.payload.length).map (segment p.payload)).flatten else p.payload

/-- The receiver's payload of n bytes: zeros for every segment the mask lacks. -/
def expandSegs (mask : BitVec 64) (n : Nat) : Nat → Nat → List Byte → List Byte
  | 0, _, _ => []
  | fuel + 1, j, bs =>
    if mask.toNat.testBit j then bs.take (segLen n j) ++ expandSegs mask n fuel (j + 1) (bs.drop (segLen n j))
    else List.replicate (segLen n j) 0 ++ expandSegs mask n fuel (j + 1) bs

/-! ### The transport header (R325) -/

/-- Types whose packets carry their LEN bytes: all but READ, ACK and NACK. -/
def carriesData (ptype : Nat) : Bool := ptype != 1 && ptype != 7 && ptype != 8

/-- A packet's 48-byte header. -/
def packetHeader (p : Packet) : List Byte :=
  let acks := p.ptype = 7 ∨ p.ptype = 8
  natLe 4 (1 + 16 * p.ptype + 2 ^ 8 * ((if p.elided then 1 else 0) + (if p.fetch then 2 else 0) + (if p.retx then 4 else 0)) +
    2 ^ 16 * (p.nhops + 16 * p.rptr)) ++
  natLe 8 p.route.toNat ++ natLe 4 p.dstFlow ++ natLe 4 p.srcFlow ++ natLe 4 p.psn.toNat ++
  natLe 8 (if acks then p.cumPsn.toNat + 2 ^ 32 * p.sack.toNat else p.raddr) ++
  natLe 4 (p.len + 2 ^ 16 * p.afmt + 2 ^ 20 * p.status + 2 ^ 28 * p.reason) ++ natLe 4 p.ref.toNat ++
  natLe 8 p.elideMask.toNat

/-- A packet's bytes on the wire. -/
def packetBytes (p : Packet) : List Byte := packetHeader p ++ wirePayload p

/-- Payload bytes that a header announces on the wire. -/
def wirePayloadLen (bs : List Byte) : Nat :=
  let n := bytesN bs 33 32 % 8192
  if !carriesData (byteAt bs 0 / 16) then 0
  else if bitN (byteAt bs 1) 0 then ((maskSegs (BitVec.ofNat 64 (bytesN bs 47 40)) n).map (segLen n)).sum
  else n

/-- Bytes of the packet that stands at the front of `bs`. -/
def packetLen (bs : List Byte) : Nat := 48 + wirePayloadLen bs

/-- Reserved bits of the header are 0, VER is 1, the fields that other types use are 0, and the packet is as long as it says
(R325). [log 159: DEDUCED] -/
def headerGood (bs : List Byte) : Bool :=
  let n := bytesN bs 33 32 % 8192
  let mask := bytesN bs 47 40
  byteAt bs 0 % 16 == 1 && decide (byteAt bs 1 < 8) && byteAt bs 3 == 0 && decide (bytesN bs 15 12 < 2 ^ 18) &&
    decide (bytesN bs 19 16 < 2 ^ 18) &&
    (byteAt bs 0 / 16 == 7 || byteAt bs 0 / 16 == 8 || decide (bytesN bs 31 24 < 2 ^ 52)) &&
    bitsN (bytesN bs 35 32) 15 13 == 0 && !bitN (bytesN bs 35 32) 19 &&
    (if bitN (byteAt bs 1) 0 then decide (mask < 2 ^ segCount n) else mask == 0) && bs.length == packetLen bs

/-- The packet that some bytes are. -/
def packetOf (bs : List Byte) : Packet :=
  let ptype := byteAt bs 0 / 16
  let acks := ptype == 7 || ptype == 8
  let w := bytesN bs 35 32
  let n := w % 8192
  let elided := bitN (byteAt bs 1) 0
  let mask := BitVec.ofNat 64 (bytesN bs 47 40)
  let body := bs.drop 48
  { wellFormed := headerGood bs, ptype := ptype, elided := elided, fetch := bitN (byteAt bs 1) 1, retx := bitN (byteAt bs 1) 2
    nhops := byteAt bs 2 % 16, rptr := byteAt bs 2 / 16, route := BitVec.ofNat 64 (bytesN bs 11 4)
    dstFlow := bytesN bs 15 12 % 2 ^ 18, srcFlow := bytesN bs 19 16 % 2 ^ 18, psn := BitVec.ofNat 32 (bytesN bs 23 20)
    raddr := if acks then 0 else bytesN bs 31 24 % 2 ^ 52, len := n, afmt := bitsN w 18 16, status := bitsN w 27 20
    reason := bitsN w 31 28, ref := BitVec.ofNat 32 (bytesN bs 39 36), elideMask := mask
    cumPsn := if acks then BitVec.ofNat 32 (bytesN bs 27 24) else 0, sack := if acks then BitVec.ofNat 32 (bytesN bs 31 28) else 0
    payload := if !carriesData ptype then [] else if elided then expandSegs mask n (segCount n) 0 body else body }

/-- A packet's bytes with the next hop pointer one on (R326): nothing else of a packet changes on its way. -/
def nextHopBytes (bs : List Byte) : List Byte := listSet bs 2 (BitVec.ofNat 8 (byteAt bs 2 + 16))

/-! ### Native frames (R321) -/

/-- A class of the wire as a number, and back. -/
def wireNum : WireClass → Nat
  | .req => 0 | .rsp => 1 | .col => 2
def wireClassOf (n : Nat) : WireClass :=
  match n with
  | 0 => .req | 1 => .rsp | _ => .col

/-- Cells of a frame that carries n bytes of packet: link header, packet and CRC-32. -/
def cellsFor (n : Nat) : Nat := ceilDiv (24 + n + 4) 64

/-- The cells of a packet's frame. -/
def frameCells (p : Packet) : Nat := cellsFor (48 + (wirePayload p).length)

/-- The first 22 bytes of a link header. -/
def linkHead (ltype buf cells sent : Nat) (freed : List (BitVec 16)) : List Byte :=
  natLe 4 (ltype + (buf % 2) * 16 + 2 ^ 8 * (buf / 2) + 2 ^ 16 * cells) ++ natLe 2 sent ++
    ((List.range 6).map fun i => natLe 2 (freed.getD i 0).toNat).flatten ++ natLe 4 0

/-- A frame: the header with its HCRC, the body, and zeros up to whole cells. -/
def frameBytes (ltype buf cells sent : Nat) (freed : List (BitVec 16)) (body : List Byte) : List Byte :=
  let h := linkHead ltype buf cells sent freed
  h ++ natLe 2 (crc16 h) ++ body ++ List.replicate (64 * cells - 24 - body.length) 0

/-- The frame of a packet in a buffer. -/
def packetFrame (buf sent : Nat) (freed : List (BitVec 16)) (bs : List Byte) : List Byte :=
  frameBytes 1 buf (cellsFor bs.length) sent freed (bs ++ natLe 4 (crc32 bs))

/-- A link-status frame: one cell. -/
def statusFrame (sentAll freed : List (BitVec 16)) : List Byte :=
  frameBytes 2 0 1 0 freed ((((List.range 6).map fun i => natLe 2 (sentAll.getD i 0).toNat).flatten) ++ natLe 4 0)

/-- A native frame as it is taken from its bytes (R321, R322). `packet = none` is a link-status frame, whose body is
`sentAll`. -/
structure NativeFrame where
  hcrcGood : Bool
  crcGood  : Bool
  cls      : WireClass
  vl       : Bool
  cells    : Nat
  sent     : BitVec 16
  freed    : List (BitVec 16)
  packet   : Option (List Byte)
  sentAll  : List (BitVec 16)
  deriving DecidableEq, Repr

/-- Six 16-bit counts from an offset of some bytes. -/
def sixCounts (bs : List Byte) (o : Nat) : List (BitVec 16) :=
  (List.range 6).map fun i => BitVec.ofNat 16 (bytesN bs (o + 2 * i + 1) (o + 2 * i))

/-- The frame that some bytes are. A header with a reserved LTYPE, CLASS, bit or length is taken as no good header, and a
frame whose packet passes its end has no good CRC-32. [log 159: DEDUCED] -/
def nativeOf (bs : List Byte) : NativeFrame :=
  let ltype := byteAt bs 0 % 16
  let cells := byteAt bs 2
  let body := bs.drop 24
  let n := packetLen body
  { hcrcGood := bytesN bs 23 22 == crc16 (bs.take 22) && (ltype == 1 || ltype == 2) && decide (byteAt bs 0 < 32) &&
      decide (byteAt bs 1 < 3) && byteAt bs 3 == 0 && bytesN bs 21 18 == 0 && decide (1 ≤ cells) && decide (cells ≤ 66) &&
      (ltype == 1 || cells == 1)
    crcGood := decide (64 * cells ≤ bs.length) && decide (24 + n + 4 ≤ 64 * cells) &&
      bytesN body (n + 3) n == crc32 (body.take n)
    cls := wireClassOf (byteAt bs 1), vl := bitN (byteAt bs 0) 4, cells := cells
    sent := BitVec.ofNat 16 (bytesN bs 5 4), freed := sixCounts bs 6
    packet := if ltype = 2 then none else some (body.take n), sentAll := sixCounts bs 24 }

/-! ### Ethernet frames (R324) -/

/-- A number in network byte order. -/
def natBe (n v : Nat) : List Byte := (natLe n v).reverse
/-- Bytes [hi:lo] of a record in network byte order. -/
def bytesBe (bs : List Byte) (hi lo : Nat) : Nat := leNat ((bs.drop lo).take (hi + 1 - lo)).reverse

/-- A frame with its FCS, padded to 64 bytes. -/
def etherFrame (dmac smac : Nat) (tag : Option Nat) (etherType : Nat) (body : List Byte) : List Byte :=
  let bs := natBe 6 dmac ++ natBe 6 smac ++ (match tag with
    | some t => natBe 2 0x8100 ++ natBe 2 t
    | none => []) ++ natBe 2 etherType ++ body
  let bs := bs ++ List.replicate (60 - bs.length) 0
  bs ++ natLe 4 (crc32 bs)

/-- A priority flow control frame of IEEE 802.1Qbb: the priorities it sets, and their pause times in quanta.
[log 158: DESIGN CHOICE] -/
def pfcFrame (smac : Nat) (mask : Nat) (quanta : Nat) : List Byte :=
  etherFrame 0x0180C2000001 smac none 0x8808 (natBe 2 0x0101 ++ natBe 2 mask ++
    ((List.range 8).map fun i => natBe 2 (if mask.testBit i then quanta else 0)).flatten)

/-- An Ethernet frame as it is taken from its bytes (R324). -/
structure EtherFrame where
  etherType : Nat
  fcsGood   : Bool
  body      : List Byte
  deriving DecidableEq, Repr

/-- The frame that some bytes are. -/
def etherOf (bs : List Byte) : EtherFrame :=
  let o := if bytesBe bs 13 12 = 0x8100 then 16 else 12
  let n := bs.length - 4
  { etherType := bytesBe bs (o + 1) o, fcsGood := leNat (bs.drop n) == crc32 (bs.take n)
    body := (bs.take n).drop (o + 2) }

/-- The packet of a frame's body, without its padding. -/
def EtherFrame.packet (f : EtherFrame) : List Byte := f.body.take (packetLen f.body)

end Sys2Proof.Machine
end

