-- ==== Sys2Proof/Machine/Flow.lean ====
section
/-! DEFINITION. Flow contexts, and the sending side of the transport: packets, the retransmit store, links and their
credits (R319 to R323, R325, R327 to R330, R333, R338, R339). -/
namespace Sys2Proof.Machine

/-! ### Optical ports and links (R319, R321, R322, R339) -/

/-- MODE of a port: true in Ethernet mode. -/
def State.ethernet (s : State) (port : Nat) : Bool := flag (s.reg (netPortReg port 0)) 0

/-- Sub-ports of a port, by BREAKOUT (R319). -/
def State.subPorts (s : State) (port : Nat) : Nat :=
  match field (s.reg (netPortReg port 0)) 2 1 with
  | 0 => 1 | 1 => 2 | 2 => 4 | _ => 0

/-- UP of a link. -/
def State.linkUp (s : State) (port sub : Nat) : Bool :=
  decide (sub < s.subPorts port) && flag (s.reg (netPortReg port 4)) sub && !s.dieLost (2 + port / 16)

/-- The cells of a receive buffer of a link (R322). -/
def State.bufCells (s : State) (port buf : Nat) : Nat := (if 4 ≤ buf then 2048 else 1024) / max 1 (s.subPorts port)

/-- The class of a packet type (R299, R325). -/
def ptypeClass (t : Nat) : WireClass :=
  match t with
  | 0 | 1 | 3 | 5 => .req
  | 6 => .col
  | _ => .rsp

/-- PFC and the PCP of a class of the wire (NET_ETH_CFG, R339). -/
def State.pfc (s : State) : Bool := flag (s.reg 0x70008) 0
def State.pcp (s : State) (cls : Nat) : Nat := field (s.reg 0x70008) (3 * cls + 3) (3 * cls + 1)

/-- Whether the peer of an Ethernet link has paused a class (R324). -/
def State.paused (s : State) (port sub cls : Nat) : Bool :=
  s.pfc && decide (0 < tget (fun _ => 0) (s.link port sub).pause (s.pcp cls))

/-- Whether a sender may transmit n cells into a buffer: the peer has room for them (R322), or, in Ethernet mode, has not
paused the class (R324). -/
def State.linkRoom (s : State) (port sub buf n : Nat) : Bool :=
  let l := s.link port sub
  let sent := tget (fun _ => (0 : BitVec 16)) l.sent buf
  let freed := tget (fun _ => (0 : BitVec 16)) l.freed buf
  if s.ethernet port then !s.paused port sub (buf / 2)
  else decide ((sent - freed + BitVec.ofNat 16 n).toNat ≤ s.bufCells port buf)

/-- The source MAC of a sub-port (R339). -/
def State.portMac (s : State) (port sub : Nat) : Nat := (field (s.reg (netPortReg port 8)) 47 0 + sub) % 2 ^ 48

/-- The VLAN tag that word 1 of a flow asks for, with the PCP of the class (R324, R327). -/
def State.vlanTag (s : State) (eth : Word) (cls : Nat) : Option Nat :=
  if flag eth 63 then some (s.pcp cls * 2 ^ 13 + field eth 59 48) else none

/-- A packet put on a link as a frame: counted; in native mode its cells are accounted, and the header carries the counts
(R321, R322); in Ethernet mode it takes the addresses and the tag of its flow's word 1 (R324). [log 74: DEDUCED] -/
def State.transmit (s : State) (port sub buf : Nat) (bs : List Byte) (eth : Word) : State :=
  let l := s.link port sub
  let s := s.count64 (netPortReg port 0x10) 1
  if s.ethernet port then
    s.emit (.frame port sub (etherFrame (field eth 47 0) (s.portMac port sub) (s.vlanTag eth (buf / 2))
      (field (s.reg 0x70000) 15 0) bs))
  else
    let sent := tget (fun _ => (0 : BitVec 16)) l.sent buf + BitVec.ofNat 16 (cellsFor bs.length)
    (s.setLink port sub { l with sent := tset (fun _ => 0) l.sent buf sent }).emit
      (.frame port sub (packetFrame buf sent.toNat ((List.range 6).map fun b => tget (fun _ => 0) l.out b) bs))

/-! ### Context fields (R327) -/

/-- STATE: 0 FREE, 1 OPEN, 2 DRAINING, 3 ERROR. -/
def State.flowState (s : State) (i : Nat) : Nat := field (s.reg (flowReg i 0)) 2 0
/-- PORT and SUBPORT. -/
def State.flowPort (s : State) (i : Nat) : Nat := field (s.reg (flowReg i 0)) 8 4
def State.flowSub (s : State) (i : Nat) : Nat := field (s.reg (flowReg i 0)) 10 9
/-- ELIDE. -/
def State.flowElide (s : State) (i : Nat) : Bool := flag (s.reg (flowReg i 0)) 11
/-- PERM for an operation: 0 WRITE, 1 READ, 2 ATOMIC, 3 SEND, 4 COL. -/
def State.flowPerm (s : State) (i op : Nat) : Bool := flag (s.reg (flowReg i 0)) (12 + op)
/-- TX_PSN, UNACKED and RX_EPSN. -/
def State.txPsn (s : State) (i : Nat) : BitVec 32 := (s.reg (flowReg i 5)).setWidth 32
def State.unacked (s : State) (i : Nat) : Nat := field (s.reg (flowReg i 5)) 40 32
def State.rxEpsn (s : State) (i : Nat) : BitVec 32 := (s.reg (flowReg i 6)).setWidth 32

/-- The network die of a context. -/
def flowDie (i : Nat) : Nat := 2 + i / 131072

/-- A context's index as software and the wire know it (R31, R327). -/
def State.wireFlow (s : State) (i : Nat) : Nat := if s.split then i % 131072 else i

/-- The context a network die means by an index on the wire. -/
def State.localFlow (s : State) (nd w : Nat) : Nat := if s.split then w % 131072 + nd * 131072 else w

/-- The number of unacknowledged packets follows the store. -/
def State.setUnacked (s : State) (i n : Nat) : State := s.putReg (flowReg i 5) 40 32 n

/-- Whether a flow's link carries its packets: the link is up and the die in service. -/
def State.flowUp (s : State) (i : Nat) : Bool := s.linkUp (s.flowPort i) (s.flowSub i) && !s.dieLost (flowDie i)

/-! ### Packets (R325, R330) -/

/-- A packet of a flow, with its route (R325, R326) and, on an ELIDE context, its segments (R337). -/
def State.packet (s : State) (i ptype : Nat) (payload : List Byte) : Packet :=
  let w0 := s.reg (flowReg i 0)
  let elided := s.flowElide i && (ptype == 0 || ptype == 2 || ptype == 5)
  { wellFormed := true, ptype := ptype, elided := elided
    fetch := false, retx := false, nhops := field w0 38 35, rptr := 0
    route := if flag w0 3 then 0 else s.reg (flowReg i 1)
    dstFlow := field w0 34 17, srcFlow := s.wireFlow i, psn := 0, raddr := 0, len := payload.length, afmt := 0
    status := 0, reason := 0, ref := 0, elideMask := if elided then elideMaskOf payload else 0, cumPsn := 0, sack := 0
    payload := payload }

/-- A packet of a flow put on the flow's link. -/
def State.transmitFlow (s : State) (i : Nat) (p : Packet) : State :=
  s.transmit (s.flowPort i) (s.flowSub i) (2 * wireNum (ptypeClass p.ptype)) (packetBytes p) (s.reg (flowReg i 1))

/-- Whether a flow's link has room for a packet. -/
def State.flowRoom (s : State) (i : Nat) (p : Packet) : Bool :=
  s.linkRoom (s.flowPort i) (s.flowSub i) (2 * wireNum (ptypeClass p.ptype)) (frameCells p)

/-- The bytes a packet takes in the retransmit store: its header and its logical payload. [log 75: DEDUCED] -/
def storeBytes (p : Packet) : Nat := 48 + p.payload.length

/-- The store of a network die in use (R333, R339). -/
def State.storeUsed (s : State) (die : Nat) : Nat := field (s.reg (netDieReg (die - 2) 0x10)) 25 0

/-- The store's use goes up or down. -/
def State.storeAdd (s : State) (die n : Nat) : State := s.putReg (netDieReg (die - 2) 0x10) 25 0 (s.storeUsed die + n)
def State.storeSub (s : State) (die n : Nat) : State := s.putReg (netDieReg (die - 2) 0x10) 25 0 (s.storeUsed die - n)

/-- A data packet waits on its flow to be sent. -/
def State.enqueue (s : State) (i : Nat) (p : Packet) (owner : Owner) (dst : Nat) : State :=
  let f := s.flow i
  s.setFlow i { f with queue := f.queue ++ [⟨p, false, false, false, owner, dst⟩] }

/-! ### What a channel hears of its packets (R260, R330, R333) -/

/-- A WRITE burst has entered the store: the first hop has accepted it (R333), and a barrier waits for its PSN. -/
def State.chanAccepted (s : State) (b : BurstId) (i : Nat) (psn : BitVec 32) : State :=
  s.updBurst b fun d => { d with openB := d.openB - 1, psns := d.psns ++ [(i, psn)] }

/-- A WRITE is acknowledged (R334). -/
def State.chanAcked (s : State) (ch i : Nat) (psn : BitVec 32) : State :=
  let c := s.chan ch
  s.setChan ch { c with flight := c.flight.map fun d => { d with psns := d.psns.filter (· != (i, psn)) }
                        oldPsns := c.oldPsns.filter (· != (i, psn)) }

/-- A stored or waiting packet's operation completes with an error status (R331, R338): a WRITE in the store has been
accepted before, any other packet of a channel answers its burst. -/
def State.ownerFailed (s : State) (i : Nat) (x : Stored) (stored : Bool) (st : Status) : State :=
  match x.owner with
  | .none => s
  | .ring _ _ _ => s
  | .cmd cid => s.finish cid st
  | .chan b =>
    if stored && x.pkt.ptype == 0 then (s.burstError b st true).chanAcked b.ch i x.pkt.psn
    else s.burstAnswered b st (x.pkt.ptype == 0)

/-- A context enters ERROR (R335, R338, R450): its packets are freed and their operations complete with the status. -/
def State.flowError (s : State) (i : Nat) (st : Status) : State :=
  let f := s.flow i
  let s := f.store.foldl (fun s x => (s.ownerFailed i x true st).storeSub (flowDie i) (storeBytes x.pkt)) s
  let s := f.queue.foldl (fun s x => s.ownerFailed i x false st) s
  let s := s.setFlow i Flow.reset
  ((s.putReg (flowReg i 0) 2 0 3).setUnacked i 0).putReg (flowReg i 6) 39 32 st.code

/-! ### Writes of a context (R328) -/

/-- RW bits of a word of a context (R327); in Ethernet mode bits [62:60] of word 1 are reserved. -/
def flowRw (w : Nat) (ethernet : Bool) : Nat :=
  match w with
  | 0 => 0x7FFFFFFFFF
  | 1 => if ethernet then 0x8FFFFFFFFFFFFFFF else 0xFFFFFFFFFFFFFFFF
  | 2 => 0x3FFFFFFFFFFFFFF
  | 3 => 0xFFFFFFFFFFFFFF
  | 4 => 0xFFFF
  | 5 => 0xFFFFFFFF
  | 6 => 0xFFFFFFFF
  | _ => 0

/-- A word with the bits of a mask taken from `v`. -/
def maskIn (old v : Word) (mask : Nat) : Word :=
  (old &&& ~~~(BitVec.ofNat 64 mask)) ||| (v &&& BitVec.ofNat 64 mask)

/-- A write that stores nothing is counted (R328). -/
def State.flowIgnored (s : State) (i : Nat) : State := s.count (netDieReg (i / 131072) 4) 1

/-- Whether word 0 names an existing link of its port's mode, on the context's own die (R327, R328). -/
def State.flowLinkOk (s : State) (i : Nat) (w0 : Word) : Bool :=
  let port := field w0 8 4
  port / 16 == i / 131072 && s.ethernet port == flag w0 3 && decide (field w0 10 9 < s.subPorts port)

/-- A kernel-path write of the bits `mask` of word w of context i (R328). -/
def State.writeFlow (s : State) (i w : Nat) (v : Word) (mask : Nat) : State :=
  let o := flowReg i w
  let st := s.flowState i
  let rw := flowRw w (flag (s.reg (flowReg i 0)) 3) &&& mask
  let new := maskIn (s.reg o) v rw
  if w = 0 ∧ field new 2 0 ≠ st then
    if st = 0 ∧ field new 2 0 = 1 ∧ s.flowLinkOk i new then
      (s.setReg o new).setFlow i { Flow.reset with cumSeen := s.txPsn i }
    else if (st = 1 ∧ field new 2 0 = 2) ∨ (st = 3 ∧ field new 2 0 = 0) then s.putReg o 2 0 (field new 2 0)
    else s.flowIgnored i
  else if st = 0 ∧ rw ≠ 0 then s.setReg o new
  else if (st = 1 ∨ st = 2) ∧ w = 4 ∧ rw ≠ 0 then s.setReg o new
  else s.flowIgnored i

/-- A host's write of a whole word of a context. -/
def State.flowWrite (s : State) (path : Path) (i w : Nat) (v : State → Nat → Word) : State :=
  s.kernelWrite path (flowReg i w) fun o s =>
    let j := (o - 0x3000000) / 64
    s.writeFlow j w (v s j) (2 ^ 64 - 1)

/-- FLOW_OPEN (R328): a write of word 0 with STATE = 1. -/
def execFlowOpen (path : Path) (flow : Nat) (v : BitVec 64) (s : State) : Host.Outcome State Fault Refusal :=
  .next (s.flowWrite path flow 0 fun _ _ => putField v 2 0 1)

/-- FLOW_DRAIN (R328): a write of word 0 with STATE = 2. -/
def execFlowDrain (path : Path) (flow : Nat) (v : BitVec 64) (s : State) : Host.Outcome State Fault Refusal :=
  .next (s.flowWrite path flow 0 fun _ _ => putField v 2 0 2)

/-- FLOW_FREE (R328): a write of word 0 with STATE = 0. -/
def execFlowFree (path : Path) (flow : Nat) (v : BitVec 64) (s : State) : Host.Outcome State Fault Refusal :=
  .next (s.flowWrite path flow 0 fun _ _ => putField v 2 0 0)

/-- FLOW_FIELD_WRITE (R328): a write that leaves STATE as it is. -/
def execFlowFieldWrite (path : Path) (flow : Nat) (word : Fin 8) (v : BitVec 64) (s : State) :
    Host.Outcome State Fault Refusal :=
  .next (s.flowWrite path flow word fun s j => if word.val = 0 then putField v 2 0 (s.flowState j) else v)

/-- FLOW_DRAINED (R328): a DRAINING context with nothing unacknowledged and no response awaited becomes FREE. -/
def execFlowDrained (flow : FlowId) (s : State) : Host.Outcome State Fault Refusal :=
  let f := s.flow flow
  .next (if s.flowState flow = 2 ∧ f.store = [] ∧ f.queue = [] then
      (s.putReg (flowReg flow 0) 2 0 0).setFlow flow Flow.reset
    else s)

/-! ### Sending (R333) -/

/-- A stored packet is sent again, with RETX = 1; while its link has no room, or the transmit slot is gated, the
retransmission is due. -/
def State.resend (s : State) (i : Nat) (x : Stored) : State :=
  let mark := fun (s : State) (b : Bool) => s.setFlow i { s.flow i with
    store := (s.flow i).store.map fun y => if y.pkt.psn = x.pkt.psn then { y with due := b } else y }
  if s.flowUp i && s.flowRoom i x.pkt then
    match s.netSlot (flowDie i - 2) with
    | (true, s) => ((mark s false).count (flowReg i 7) 1).transmitFlow i { x.pkt with retx := true }
    | (false, s) => mark s true
  else mark s true

/-- The stored packets of a flow that a test picks are sent again, in their order. -/
def State.resendAll (s : State) (i : Nat) (pick : Stored → Bool) : State :=
  ((s.flow i).store.filter pick).foldl (fun s x => s.resend i x) s

/-- Whether the next packet of a flow may go: OPEN or DRAINING, link up, fewer than 256 unacknowledged, room in the
store and on the link, and one FETCH ATOMIC at a time (R322, R330, R333). -/
def State.maySend (s : State) (i : Nat) (p : Packet) : Bool :=
  (s.flowState i == 1 || s.flowState i == 2) && s.flowUp i && decide (s.unacked i < 256) &&
    decide (s.storeUsed (flowDie i) + storeBytes p ≤ 0x2000000) && s.flowRoom i p &&
    !(p.fetch && (s.flow i).fetchBusy)

/-- The next packet of a flow takes its PSN, enters the store and is sent (R333), in a transmit slot that the network duty
lets through (R35, R323). [log 74: DEDUCED] -/
def State.sendNext (s : State) (i : Nat) : State :=
  let f := s.flow i
  match f.queue with
  | [] => s
  | x :: rest =>
    if !s.maySend i x.pkt then s
    else match s.netSlot (flowDie i - 2) with
      | (false, s) => s
      | (true, s) =>
        let psn := s.txPsn i
        let p := { x.pkt with psn := psn }
        let s := s.setFlow i { f with queue := rest, store := f.store ++ [{ x with pkt := p }]
                                      fetchBusy := f.fetchBusy || p.fetch }
        let s := s.putReg (flowReg i 5) 31 0 (psn + 1).toNat
        let s := (s.setUnacked i (f.store.length + 1)).storeAdd (flowDie i) (storeBytes p)
        let s := match x.owner with
          | .chan b => if p.ptype = 0 then s.chanAccepted b i psn else s
          | _ => s
        s.transmitFlow i p

/-- A retransmission of a flow that waits for room. -/
def State.dueStored (s : State) (i : Nat) : Option Stored := (s.flow i).store.find? fun x => x.due && !x.rnr

/-- PACKET_SEND (R333, R335): a retransmission that is due goes first, else the flow's next packet. -/
def execPacketSend (flow : FlowId) (s : State) : Host.Outcome State Fault Refusal :=
  .next (match s.dueStored flow with
    | some x => s.resend flow x
    | none => s.sendNext flow)

end Sys2Proof.Machine
end

