-- ==== Sys2Proof/Machine/Ring.lean ====
section
/-! DEFINITION. Collective chunks on the wire, jobs, and the aborts that travel round a ring (R340, R346 to R349,
R366 to R369). -/
namespace Sys2Proof.Machine

/-! ### Chunks (R346 to R349) -/

/-- CTYPE of a chunk. -/
def ChunkBody.ctype : ChunkBody → Nat
  | .rs _ => 0 | .repair _ => 1 | .ag _ => 2 | .credit => 3 | .abort => 4

/-- Blocks a chunk carries. -/
def ChunkBody.blocks : ChunkBody → List Nat
  | .rs r => r.map (·.block)
  | .repair r => r.map (·.1)
  | .ag r => r.map (·.block)
  | .credit => []
  | .abort => []

/-- The sums of a record are all 0 and are not carried (R347). -/
def RsRec.zero (r : RsRec) : Bool := r.sums.all (· == 0)

/-- Bytes of a running sum on the wire. -/
def sumBytes (wide : Bool) : Nat := if wide then 2 else 1

/-- An RS record (R347). -/
def rsBytes (wide : Bool) (r : RsRec) : List Byte :=
  natLe 8 (r.csum.toNat + unsigned 12 r.grid * 2 ^ 16 + r.aexp % 512 * 2 ^ 28 + bit1 r.ovf 37 + bit1 r.nan 38 +
    bit1 r.zero 39 + bit1 r.fail 40 + r.cnt.toNat * 2 ^ 48) ++
  if r.zero then [] else (r.sums.map fun x => natLe (sumBytes wide) (unsigned (8 * sumBytes wide) x)).flatten

/-- An AG record (R349). -/
def agBytes (r : AgRec) : List Byte := natLe 8 (r.psc + r.gridn * 256 + bit1 r.skipped 16) ++ r.bytes

/-- The records of a chunk. -/
def Chunk.records (c : Chunk) : List Byte :=
  match c.body with
  | .rs r => (r.map (rsBytes c.wide)).flatten
  | .repair r => (r.map fun (x : Nat × Int) => natLe 4 (unsigned 12 x.2)).flatten
  | .ag r => (r.map agBytes).flatten
  | .credit => []
  | .abort => []

/-- A chunk as a packet carries it (R346). -/
def Chunk.encode (c : Chunk) : List Byte :=
  let bs := c.body.blocks
  natLe 16 (c.body.ctype + bit1 c.wide 3 + c.round % 8 * 16 + bit1 c.repaired 7 + c.status % 256 * 2 ^ 8 +
    c.tag.toNat * 2 ^ 16 + c.step.toNat * 2 ^ 32 + c.shard % 2 ^ 14 * 2 ^ 48 + c.first % 2 ^ 32 * 2 ^ 64 +
    bs.length * 2 ^ 96) ++
  natLe 16 (bs.foldl (fun m b => m + 2 ^ (b - c.first)) 0) ++ c.records

/-- The masked blocks of a chunk's header. -/
def maskBlocks (bs : List Byte) : List Nat :=
  let m := bytesN bs 31 16
  ((List.range 128).filter fun k => bitN m k).map fun k => bytesN bs 11 8 + k

/-- RS records for the blocks of a mask, and what is left of the bytes. -/
def rsParse (wide : Bool) : List Nat → List Byte → Option (List RsRec × List Byte)
  | [], bs => some ([], bs)
  | b :: rest, bs =>
    let h := bytesN bs 7 0
    let n := if bitN h 39 then 0 else 32 * sumBytes wide
    let body := (bs.drop 8).take n
    let k := sumBytes wide
    if bs.length < 8 + n then none
    else match rsParse wide rest (bs.drop (8 + n)) with
      | none => none
      | some (rs, left) => some (
          { block := b, csum := BitVec.ofNat 16 h, grid := signed 12 (bitsN h 27 16), aexp := bitsN h 36 28
            ovf := bitN h 37, nan := bitN h 38, fail := bitN h 40, cnt := BitVec.ofNat 16 (bitsN h 63 48)
            sums := (List.range 32).map fun i => signed (8 * k) (bytesN body (k * i + k - 1) (k * i)) } :: rs, left)

/-- Records of a fixed length for the blocks of a mask. -/
def fixedRecs (len : Nat) (blocks : List Nat) (bs : List Byte) : List (Nat × List Byte) :=
  blocks.zipIdx.map fun (b, i) => (b, (bs.drop (len * i)).take len)

/-- An AG record from its bytes. -/
def agParse (b : Nat) (bs : List Byte) : AgRec :=
  ⟨b, byteAt bs 0, byteAt bs 1, bitN (byteAt bs 2) 0, bs.drop 8⟩

/-- Bytes of an AG record for parameters of a format (R349). -/
def agLen (pfmt : Nat) : Nat := 8 + 4 * fmtBits pfmt

/-- The chunk of a packet's payload for a job whose parameters have a format; none where its mask disagrees with NBLK
or its length with its records (R346). -/
def Chunk.decode (bs : List Byte) (pfmt : Nat) : Option Chunk :=
  let b0 := byteAt bs 0
  let blocks := maskBlocks bs
  let recs := bs.drop 32
  let body : Option ChunkBody :=
    if blocks.length ≠ byteAt bs 12 then none
    else match b0 % 8 with
      | 0 => match rsParse (bitN b0 3) blocks recs with
        | some (rs, []) => some (.rs rs)
        | _ => none
      | 1 => if recs.length = 4 * blocks.length then
          some (.repair ((fixedRecs 4 blocks recs).map fun (x : Nat × List Byte) =>
            (x.1, signed 12 (bitsN (leNat x.2) 11 0)))) else none
      | 2 => if recs.length = agLen pfmt * blocks.length then
          some (.ag ((fixedRecs (agLen pfmt) blocks recs).map fun (x : Nat × List Byte) => agParse x.1 x.2)) else none
      | 3 => if recs = [] then some .credit else none
      | 4 => if recs = [] then some .abort else none
      | _ => none
  match body with
  | none => none
  | some body => some
    { wide := bitN b0 3, round := bitsN b0 6 4, repaired := bitN b0 7, status := byteAt bs 1
      tag := BitVec.ofNat 16 (bytesN bs 3 2), step := BitVec.ofNat 16 (bytesN bs 5 4), shard := bytesN bs 7 6 % 2 ^ 14
      first := bytesN bs 11 8, body := body }

/-- RING_TAG and STEP of a chunk's payload. -/
def chunkKey (bs : List Byte) : BitVec 16 × BitVec 16 :=
  (BitVec.ofNat 16 (bytesN bs 3 2), BitVec.ofNat 16 (bytesN bs 5 4))

/-- A chunk without records. -/
def bareChunk (tag step : BitVec 16) (status : Nat) (body : ChunkBody) : Chunk :=
  { wide := false, round := 0, repaired := false, status := status, tag := tag, step := step, shard := 0, first := 0
    body := body }

/-! ### Jobs (R345, R366, R370) -/

/-- The job of a network die (0 or 1) with a tag and a step. -/
def State.job? (s : State) (nd : Nat) (tag step : BitVec 16) : Option Job :=
  s.jobs.find? fun j => j.nd == nd && j.jrec.tag == tag && j.jrec.step == step

/-- The state with a job replaced. -/
def State.setJob (s : State) (j : Job) : State := { s with jobs := s.jobs.map fun k => if k.cid = j.cid then j else k }

/-- Receive-pool slots of a die not reserved by a job (R345, R370). -/
def State.poolFree (s : State) (nd : Nat) : Nat :=
  4096 - ((s.jobs.filter fun j => j.nd == nd).map fun j => j.jrec.pool).sum

/-- A chunk discarded at the receiving engine is counted (R346). -/
def State.stale (s : State) (nd n : Nat) : State := s.count (colReg nd 0x2C) n

/-- A data packet of a job in flight on a flow: waiting to be sent or in the store (R366). -/
def State.chunksInFlight (s : State) (i : Nat) (tag step : BitVec 16) : Bool :=
  let f := s.flow i
  (f.queue ++ f.store).any fun x => x.pkt.ptype == 6 && chunkKey x.pkt.payload == (tag, step)

/-! ### Aborts (R369) -/

/-- An ABORT chunk put on a flow that is OPEN: a data packet, which needs no pool slot. -/
def State.sendAbort (s : State) (nd i : Nat) (tag step : BitVec 16) (status : Nat) : State :=
  if s.flowState i = 1 ∧ flowDie i = 2 + nd then
    (s.enqueue i (s.packet i 6 (bareChunk tag step status .abort).encode) .none 0).putBit (colReg nd 0) 21 true
  else s

/-- A position originates an ABORT in both directions. [log 85: DEDUCED] -/
def State.originateAbort (s : State) (nd next prev : Nat) (tag step : BitVec 16) (status : Nat) : State :=
  (s.sendAbort nd next tag step status).sendAbort nd prev tag step status

/-- A job stops: it starts no pass and no AG chunk any more, so what it had not sent as an injection is dropped, and
the slots that held it are free. [log 80: DEDUCED] -/
def Job.halt (j : Job) (st : Status) (byPeer : Bool) : Job :=
  { j with stopped := true, byPeer := byPeer, faults := j.faults ++ [st], pendingAg := []
           freed := j.freed + BitVec.ofNat 16 (j.outq.filter fun (x : Chunk × Bool × Bool) => x.2.1 && x.2.2).length
           outq := j.outq.filter fun (x : Chunk × Bool × Bool) => !x.2.1 }

/-- A job that neither originated nor forwarded an ABORT originates one with a status; the status joins its own. -/
def State.jobFails (s : State) (j : Job) (st : Status) : State :=
  if j.stopped then s.setJob { j with faults := j.faults ++ [st] }
  else (s.setJob (j.halt st false)).originateAbort j.nd j.jrec.nextFlow j.jrec.prevFlow j.jrec.tag j.jrec.step st.code

/-- A context enters ERROR, and every job whose ring it carries originates an ABORT (R338, R369). -/
def State.flowFail (s : State) (i : Nat) (st : Status) : State :=
  (s.jobs.filter fun j => j.jrec.nextFlow == i || j.jrec.prevFlow == i).foldl (fun s j => s.jobFails j st)
    (s.flowError i st)

/-- Flow contexts that are not FREE. -/
def State.liveFlows (s : State) : List Nat :=
  (s.regs.filter fun (e : Nat × Word) => decide (0x3000000 ≤ e.1) && decide (e.1 < 0x4000000) && e.1 % 64 == 0 &&
    field e.2 2 0 != 0).map fun (e : Nat × Word) => (e.1 - 0x3000000) / 64

/-- Flow contexts of a link that are OPEN or DRAINING. -/
def State.linkFlows (s : State) (port sub : Nat) : List Nat :=
  s.liveFlows.filter fun i => s.flowPort i == port && s.flowSub i == sub && s.flowState i != 3

end Sys2Proof.Machine
end

