-- ==== Sys2Proof/Machine/Optic.lean ====
section
/-! DEFINITION. Optical ports and links: training, native and Ethernet frames, source routing, link loss (R319 to R326,
R338, R339). -/
namespace Sys2Proof.Machine

/-! ### Training (R320) -/

/-- Lanes of a sub-port (R319). -/
def State.lanes (s : State) (port sub : Nat) : List Nat :=
  match field (s.reg (netPortReg port 0)) 2 1 with
  | 0 => [0, 1, 2, 3]
  | 1 => [2 * sub, 2 * sub + 1]
  | _ => [sub]

/-- A link comes up: its credit counts start from zero (R338). -/
def State.bringUp (s : State) (port sub : Nat) : State :=
  let l := s.link port sub
  (s.setLink port sub { Link.reset with held := l.held, losses := l.losses }).putBit (netPortReg port 4) sub true

/-- SPARE_USED of the four ports of a connector (R320, R339). [log 68: DEDUCED] -/
def State.useSpare (s : State) (port : Nat) : State :=
  (span (port / 4 * 4) 4).foldl (fun s p => s.putBit (netPortReg p 4) 5 true) s

/-- A training attempt of the sub-ports of a port that are down (R320). -/
def State.trainPort (s : State) (port : Nat) (t : LaneTest) : State :=
  let down := (List.range (s.subPorts port)).filter fun j => !flag (s.reg (netPortReg port 4)) j
  let tested := (down.map fun j => s.lanes port j).flatten
  let lasers := tested.filter fun l => bitN t.laserFail.toNat l
  let spare := !flag (s.reg (netPortReg port 4)) 5
  let s := if spare && !lasers.isEmpty then s.useSpare port else s
  let failed := (if spare then lasers.drop 1 else lasers) ++ tested.filter fun l => bitN t.otherFail.toNat l
  let passes := fun (ls : List Nat) => ls.all fun l => !failed.contains l && bitN t.peerUp.toNat l
  if s.subPorts port = 1 then
    if down.isEmpty then s
    else if passes [0, 1, 2, 3] then (s.bringUp port 0).putBit (netPortReg port 4) 4 false
    else if !failed.isEmpty && !s.ethernet port && (passes [0, 1] || passes [2, 3]) then
      (s.bringUp port 0).putBit (netPortReg port 4) 4 true
    else s
  else down.foldl (fun s j => if passes (s.lanes port j) then s.bringUp port j else s) s

/-- PORT_RETRAIN (R320); a port whose transmit and receive clock is lost does not train (R44). -/
def execPortRetrain (port : Fin 32) (test : LaneTest) (s : State) : Host.Outcome State Fault Refusal :=
  .next (if s.mode = .running ∧ s.dieLost (2 + port / 16) = false ∧ 16 + port.val / 16 ∉ s.domainLost then s.trainPort port test
    else s)

/-! ### Credits and receive buffers (R321, R322) -/

/-- A count of one buffer of a link. -/
def linkCount (t : Table (BitVec 16)) (buf : Nat) : BitVec 16 := tget (fun _ => 0) t buf

/-- Cells of a receive buffer are freed. -/
def State.freeCells (s : State) (port sub buf : Nat) (n : BitVec 16) : State :=
  let l := s.link port sub
  s.setLink port sub { l with out := tset (fun _ => 0) l.out buf (linkCount l.out buf + n) }

/-- Cells that packets of a class of an Ethernet link take until they are handled. -/
def State.etherCells (s : State) (port sub cls : Nat) : Nat :=
  ((s.arrived.filter fun (x : Nat × Arrival) => x.2.port == port && x.2.sub == sub && wireNum x.2.cls == cls).map
    fun (x : Nat × Arrival) => x.2.cells).sum

/-- Priority flow control of a class of an Ethernet link (R324): its peer is asked to pause when the buffer fills, and to go
on when it has drained. [log 158: DESIGN CHOICE] -/
def State.pfcSync (s : State) (port sub cls : Nat) : State :=
  let l := s.link port sub
  let pcp := s.pcp cls
  let n := s.etherCells port sub cls
  let tell := fun (s : State) (xoff : List Nat) (quanta : Nat) =>
    ((s.setLink port sub { l with xoff := xoff }).count64 (netPortReg port 0x10) 1).emit
      (.frame port sub (pfcFrame (s.portMac port sub) (2 ^ pcp) quanta))
  if !s.pfc || !s.ethernet port then s
  else if !l.xoff.contains pcp && decide (Config.pfcOn < n) then tell s (pcp :: l.xoff) 0xFFFF
  else if l.xoff.contains pcp && decide (n ≤ Config.pfcOff) then tell s (l.xoff.filter (· != pcp)) 0
  else s

/-- An arrival leaves its receive buffer: its cells are freed, unless its link has gone down since (R338). -/
def State.freeArrival (s : State) (a : Arrival) : State :=
  if s.ethernet a.port then s.pfcSync a.port a.sub (wireNum a.cls)
  else if (s.link a.port a.sub).losses = a.losses then s.freeCells a.port a.sub a.buf (BitVec.ofNat 16 a.cells)
  else s

/-- A header tells how many cells the peer has sent into a buffer, this frame included: what was lost before it is
freed at once (R322). -/
def State.noteSent (s : State) (port sub buf : Nat) (sent cells : BitVec 16) : State :=
  let l := s.link port sub
  let lost := sent - cells - linkCount l.rcvd buf
  let s := s.setLink port sub { l with rcvd := tset (fun _ => 0) l.rcvd buf sent }
  if lost = 0 then s else s.freeCells port sub buf lost

/-- LINK_STATUS_SEND (R321): the cumulative counts of all six buffers leave in a link-status frame.
[log 67: DEDUCED] -/
def execLinkStatusSend (port : Fin 32) (sub : Fin 4) (s : State) : Host.Outcome State Fault Refusal :=
  let l := s.link port sub
  .next (if s.linkUp port sub && !s.ethernet port then
      (s.count64 (netPortReg port 0x10) 1).emit (.frame port sub (statusFrame ((List.range 6).map (linkCount l.sent))
        ((List.range 6).map (linkCount l.out))))
    else s)

/-! ### Arriving packets (R324 to R326) -/

/-- A packet that R325 discards at its final hop: a reserved bit, type or field value. A COL payload shorter than its
chunk header, or of a reserved CTYPE or ROUND (R346), is one too. -/
def badPacket (p : Packet) : Bool :=
  !p.wellFormed || decide (8 < p.ptype) || decide (8 < p.nhops) || decide (p.nhops < p.rptr) || decide (4096 < p.len) ||
  decide (15 < p.status) || (p.ptype == 3 && (p.afmt == 0 || decide (4 < p.afmt))) ||
  (p.ptype == 8 && p.reason != 1 && p.reason != 2) ||
  (p.ptype == 6 && (decide (p.payload.length < 32) || decide (4 < byteAt p.payload 0 % 8) ||
    (decide (byteAt p.payload 0 % 8 < 2) && decide (4 < bitsN (byteAt p.payload 0) 6 4))))

/-- An arrival stands in its receive buffer: on its way through, or at its final hop, where a bad packet is discarded
and counted (R325, R326). -/
def State.accept (s : State) (a : Arrival) : State :=
  let nd := a.port / 16
  if a.pkt.rptr < a.pkt.nhops then { s with forward := s.forward ++ [(nd, a)] }
  else if badPacket a.pkt then (s.count (netPortReg a.port 0x24) 1).freeArrival a
  else { s with arrived := s.arrived ++ [(nd, a)] }

/-- A native frame with a good header (R322). -/
def State.nativeFrame (s : State) (port sub : Nat) (f : NativeFrame) : State :=
  let l := s.link port sub
  let s := s.setLink port sub { l with search := false
                                       freed := f.freed.zipIdx.foldl (fun t (v, b) => tset (fun _ => 0) t b v) l.freed }
  match f.packet with
  | none =>
    (f.sentAll.zipIdx.foldl (fun s (v, b) => s.noteSent port sub b v 0) s).count64 (netPortReg port 0x18) 1
  | some bs =>
    let buf := 2 * wireNum f.cls + if f.vl then 1 else 0
    let s := s.noteSent port sub buf f.sent (BitVec.ofNat 16 f.cells)
    if f.crcGood then
      (s.count64 (netPortReg port 0x18) 1).accept ⟨packetOf bs, bs, l.losses, port, sub, f.cls, f.cells, buf⟩
    else (s.count (netPortReg port 0x20) 1).freeCells port sub buf (BitVec.ofNat 16 f.cells)

/-- NATIVE_FRAME_RECEIVE (R322): a frame with a bad HCRC is discarded and counted, and the receiver searches for the
next good header. [log 67: DEDUCED] -/
def execNativeFrameReceive (port : Fin 32) (sub : Fin 4) (bytes : List Byte) (s : State) :
    Host.Outcome State Fault Refusal :=
  let frame := nativeOf bytes
  if !(Instr.wf (.nativeFrameReceive port sub bytes)) then .fault .illFormed
  else .next (if !s.linkUp port sub || s.ethernet port then s
    else if frame.hcrcGood then s.nativeFrame port sub frame
    else (s.setLink port sub { s.link port sub with search := true }).count (netPortReg port 0x20) 1)

/-- The pause times of a priority flow control frame are kept for its priorities (R324); a quantum is 512 bit times of the
link, 16 units of 0.04 ns at 800 Gb/s. [log 158: DESIGN CHOICE] -/
def State.takePause (s : State) (port sub : Nat) (body : List Byte) : State :=
  let l := s.link port sub
  let mask := bytesBe body 3 2
  s.setLink port sub { l with pause := (List.range 8).foldl (fun t i =>
    if mask.testBit i then tset (fun _ => 0) t i (bytesBe body (5 + 2 * i) (4 + 2 * i) * 16 * s.subPorts port) else t) l.pause }

/-- ETHERNET_FRAME_RECEIVE (R324): with PFC = 1 a frame of priority flow control is honoured; any other foreign EtherType is
discarded without being counted. -/
def execEthernetFrameReceive (port : Fin 32) (sub : Fin 4) (bytes : List Byte) (s : State) :
    Host.Outcome State Fault Refusal :=
  let f := etherOf bytes
  if !(Instr.wf (.ethernetFrameReceive port sub bytes)) then .fault .illFormed
  else .next (if !s.linkUp port sub || !s.ethernet port then s
    else if s.pfc && f.etherType == 0x8808 && f.fcsGood && bytesBe f.body 1 0 == 0x0101 then s.takePause port sub f.body
    else if f.etherType ≠ field (s.reg 0x70000) 15 0 then s
    else if !f.fcsGood then s.count (netPortReg port 0x20) 1
    else
      let s := s.count64 (netPortReg port 0x18) 1
      let p := packetOf f.packet
      let cls := ptypeClass p.ptype
      if p.nhops ≠ 0 then s.count (netPortReg port 0x24) 1
      else (s.accept ⟨p, f.packet, 0, port, sub, cls, cellsFor f.packet.length, 2 * wireNum cls⟩).pfcSync port sub (wireNum cls))

/-- The hop that a packet takes next: port, sub-port and virtual lane (R326). -/
def nextHop (p : Packet) : Nat × Nat × Bool :=
  let h := bitsN p.route.toNat (8 * p.rptr + 7) (8 * p.rptr)
  (h % 32, bitsN h 6 5, bitN h 7)

/-- Whether a network die can forward out of a port: its own, or the other die's over seam 3 (R24, R32, R326). -/
def State.hopReachable (s : State) (nd port sub : Nat) : Bool :=
  s.linkUp port sub && !s.ethernet port &&
    (port / 16 == nd || (!s.split && !s.pathLost (2 + nd) (2 + port / 16) && !s.pathDown (2 + nd) (2 + port / 16)))

/-- The class of the package fabric that carries a class of the wire (R299). -/
def fabClassOf (c : WireClass) : FabClass :=
  match c with
  | .req => .req | .rsp => .rsp | .col => .col

/-- A packet on its way through crosses seam 3 to a port of the other network die (R24, R326). -/
def State.crossSeam3 (s : State) (nd port : Nat) (a : Arrival) : State :=
  if port / 16 = nd then s
  else s.sendTo (fabClassOf a.cls) (162 + nd) ⟨false, 0⟩ (vilvinSrc nd).station (vilvinSrc (port / 16)).station 0 a.raw.length
    false false none

/-- The packets on their way through a network die that stand at the front of their (link, class, VL) buffer (R326). `seen`
are the buffers met so far. -/
def buffersFront (nd : Nat) : List (Nat × Nat × Nat) → List (Nat × Arrival) → List (Nat × Arrival)
  | _, [] => []
  | seen, x :: r =>
    let b := (x.2.port, x.2.sub, x.2.buf)
    if x.1 = nd ∧ b ∉ seen then x :: buffersFront nd (b :: seen) r else buffersFront nd seen r

/-- What a packet on its way through does: none while its hop's link has no room for it; else it leaves in a transmit slot, with
nothing changed but RPTR, or is dropped (R24, R326). A data packet waits for the network duty
(R323). [log 165: DEDUCED] -/
def State.forwardOne (s : State) (nd : Nat) (x : Nat × Arrival) : Option State :=
  let a := x.2
  let (port, sub, vl) := nextHop a.pkt
  let buf := 2 * wireNum a.cls + if vl then 1 else 0
  let out := fun (s : State) => ({ s with forward := s.forward.erase x }).freeArrival a
  let go := fun (s : State) => ((out s).crossSeam3 nd port a).transmit port sub buf (nextHopBytes a.raw) 0
  if !s.hopReachable nd port sub then some ((out s).count (netPortReg a.port 0x28) 1)
  else if !s.linkRoom port sub buf (cellsFor a.raw.length) then none
  else if a.cls = .rsp then some (go s)
  else match s.netSlot (port / 16) with
    | (true, s) => some (go s)
    | (false, s) => some s

/-- SOURCE_ROUTE_FORWARD (R326): of the packets at the front of their buffers, the oldest that can leave or must be dropped
does. The buffers of a link, class and VL do not wait for each other. [log 69: DEDUCED] -/
def execSourceRouteForward (nd : Fin 2) (s : State) : Host.Outcome State Fault Refusal :=
  .next (((buffersFront nd [] s.forward).findSome? fun x => s.forwardOne nd x).getD s)

/-! ### Link loss (R338) -/

/-- Whether a cause can strike a link of a mode. -/
def causeApplies (c : LinkCause) (ethernet : Bool) : Bool :=
  match c with
  | .pcsLoss => true
  | .hcrcSilence => !ethernet
  | .linkFault => ethernet

/-- A link goes down, and its hold starts. -/
def State.linkDown (s : State) (port sub : Nat) : State :=
  ((s.setLink port sub { Link.reset with held := true, losses := (s.link port sub).losses + 1 }).putBit (netPortReg port 4) sub false).putBit
    (netPortReg port 4) 6 true

/-- LINK_LOSS (R338). -/
def execLinkLoss (port : Fin 32) (sub : Fin 4) (cause : LinkCause) (s : State) : Host.Outcome State Fault Refusal :=
  .next (if s.linkUp port sub && causeApplies cause (s.ethernet port) then s.linkDown port sub else s)

/-- LINK_HOLD_EXPIRY (R338): every flow on a link that is still down enters ERROR with LINK_DOWN. -/
def execLinkHoldExpiry (port : Fin 32) (sub : Fin 4) (s : State) : Host.Outcome State Fault Refusal :=
  .next (if (s.link port sub).held && !s.linkUp port sub then
      (s.linkFlows port sub).foldl (fun s i => s.flowFail i .linkDown)
        (s.setLink port sub { s.link port sub with held := false })
    else s)

/-! ### Retransmission (R335, R338) -/

/-- LINK_RETURN (R338): a link that has trained again within its hold resumes its flows by retransmission. -/
def execLinkReturn (port : Fin 32) (sub : Fin 4) (s : State) : Host.Outcome State Fault Refusal :=
  .next (if (s.link port sub).held && s.linkUp port sub then
      (s.linkFlows port sub).foldl (fun s i => s.resendAll i fun x => !x.rnr)
        (s.setLink port sub { s.link port sub with held := false })
    else s)

end Sys2Proof.Machine
end

