-- ==== Sys2Proof/Machine/Queue.lean ====
section
/-! DEFINITION. Queues: what engines accept, the checks of a command, fetch, waits, completion, administration and destroying
(R378 to R398), with the parts of graph launches that an abort needs (R403, R404). -/
namespace Sys2Proof.Machine

/-! ### Engines (R381) -/

/-- The opcodes an engine accepts (R381, R425). [log 89: DEDUCED] -/
def engineAccepts (e opc : Nat) : Bool :=
  if e = flintEngine then opc == 0xE0 || opc == 0xE1
  else opc == 0x00 || opc == 0xC0 || opc == 0xC1 ||
    if e < 128 then opc == 0x10
    else if e < 160 then opc == 0x20 || opc == 0x21
    else if e < 162 then opc == 0x30 || opc == 0x31 || opc == 0x32
    else decide (0x40 ≤ opc) && decide (opc ≤ 0x44)

/-! ### Command fields (R386, R388) -/

/-- WAIT_EN, SIG_EN, WAIT_CTR, SIG_CTR, WAIT_VAL and SIG_VAL. -/
def waitEn (bs : List Byte) : Bool := bitN (byteAt bs 1) 0
def sigEn (bs : List Byte) : Bool := bitN (byteAt bs 1) 1
def waitCtr (bs : List Byte) : Nat := bytesN bs 3 2
def sigCtr (bs : List Byte) : Nat := bytesN bs 5 4
def waitVal (bs : List Byte) : Nat := bytesN bs 15 8
def sigVal (bs : List Byte) : Word := BitVec.ofNat 64 (bytesN bs 23 16)
/-- A device address of the operands. -/
def addrAt (bs : List Byte) (i : Nat) : Nat := bytesN bs (i + 7) i % 2 ^ 52
/-- GRAPH, and the count beside it (NODES, ENTRIES, PROD, LEN). -/
def graphArg (bs : List Byte) : Nat := bytesN bs 25 24 % 4096
def countArg (bs : List Byte) : Nat := bytesN bs 27 26

/-- The operand fields of an opcode, as (first byte, high bit, low bit) (R388, R425). -/
def opFields (opc : Nat) : List (Nat × Nat × Nat) :=
  match opc with
  | 0x10 => [(24, 9, 0), (26, 9, 0), (28, 10, 0), (30, 0, 0), (31, 7, 0), (32, 51, 0)]
  | 0x20 => [(24, 2, 0), (26, 15, 0)]
  | 0x21 => [(24, 3, 0), (32, 63, 0), (40, 51, 0), (48, 39, 0)]
  | 0x30 => [(32, 51, 0)]
  | 0x31 => [(24, 3, 0), (26, 12, 0), (32, 51, 0), (40, 51, 0), (48, 51, 0)]
  | 0x32 => [(26, 12, 0), (32, 51, 0), (40, 17, 0)]
  | 0x40 | 0x41 => [(24, 11, 0), (26, 15, 0), (32, 51, 0)]
  | 0x42 | 0x43 | 0x44 => [(24, 11, 0)]
  | 0xC0 => [(24, 15, 0), (32, 63, 0)]
  | 0xC1 => [(24, 0, 0), (28, 25, 0), (32, 63, 0)]
  | 0xE0 => [(32, 63, 0), (40, 31, 0), (44, 31, 0)]
  | _ => []

/-- The header's fields (R386). -/
def headerFields : List (Nat × Nat × Nat) := [(0, 7, 0), (1, 1, 0), (2, 15, 0), (4, 15, 0), (8, 63, 0), (16, 63, 0)]

/-- Whether a command carries a nonzero reserved bit. -/
def cmdReserved (bs : List Byte) : Bool :=
  let w := leNat (bs.take 64)
  let m := (headerFields ++ opFields (byteAt bs 0)).foldl (fun m f => m ||| ((2 ^ (f.2.1 + 1 - f.2.2) - 1) <<< (8 * f.1 + f.2.2))) 0
  w != w &&& m

/-- Reserved field values of a command's operands (R386, R388 to R392, R425). -/
def operandReserved (bs : List Byte) : Bool :=
  (!waitEn bs && (waitCtr bs != 0 || waitVal bs != 0)) || (!sigEn bs && (sigCtr bs != 0 || bytesN bs 23 16 != 0)) ||
  match byteAt bs 0 with
  | 0x10 => let n := bytesN bs 29 28 % 2048
    n == 0 || decide (1024 < n) || decide (96 < byteAt bs 31) || addrAt bs 32 % 8 != 0
  | 0x30 => addrAt bs 32 % 64 != 0
  | 0x31 => let f := byteAt bs 24 % 8
    let n := countArg bs % 8192
    f == 0 || decide (4 < f) || n % afmtSize f != 0 || decide (n < 4) || decide (4096 < n) ||
      (bitN (byteAt bs 24) 3 && n != afmtSize f)
  | 0x32 => decide (4096 < countArg bs % 8192)
  | 0x40 | 0x41 => addrAt bs 32 % 128 != 0
  | 0xC1 => let o := bytesN bs 31 28 % 2 ^ 26
    o % (if bitN (byteAt bs 24) 0 then 8 else 4) != 0 || (decide (0x400000 ≤ o) && decide (o < 0x700000)) ||
      (decide (0x2000000 ≤ o) && decide (o < 0x2800000))
  | 0xE0 => let n := bytesN bs 47 44
    n == 0 || decide (0x400000 < n)
  | _ => false

/-- A region an engine moves data in: near memory, the far tier or a scratchpad. -/
def Region.isMem : Region → Bool
  | .near _ => true
  | .far _ => true
  | .scratch _ => true
  | _ => false

/-- The whole-module address of n bytes of memory that a partition names; none where R11 or R26 fails. No bytes are
nowhere out of bounds: a count of 0 means no work (R10). -/
def State.memAt (s : State) (part a n : Nat) : Option Nat :=
  if n = 0 then some a
  else match s.physAddr part a with
    | some p => if (s.region p).isMem = true ∧ s.extentOk p n = true then some p else none
    | none => none

/-- Whether n bytes at an address that a partition names are out of bounds under R11 or R26, as DMA is checked: any region
will do, register space too. -/
def State.extentBad (s : State) (part a n : Nat) : Bool :=
  n != 0 && match s.physAddr part a with
  | some p => s.region p == .outside || !s.extentOk p n
  | none => true

/-- The flow that a remote address names for a partition (R329). -/
def aperture (a : Nat) : Option Nat :=
  if 0x8000000000000 ≤ a ∧ a < 0x10000000000000 then some (bitsN a 50 33) else none

/-- The context of an engine's die that a flow number of a partition names (R391). -/
def State.engineFlow (s : State) (engine part w : Nat) : Option Nat :=
  if s.split ∧ 131072 ≤ w then none
  else
    let i := if s.split then w + part * 131072 else w
    if flowDie i = engineDie engine ∧ i < 262144 then some i else none

/-- n bytes from an address stay within one aligned 4 KiB block. -/
def inBlock (a n : Nat) : Bool := decide (a % 4096 + n ≤ 4096)

/-- The graph that a command of a graph engine names (R399); none where it belongs to another engine. -/
def State.physGraph (s : State) (engine part g : Nat) : Option Nat :=
  if s.split then (if g < 2048 then some (g + part * 2048) else none)
  else if g / 2048 = engine - 162 then some g else none

/-- Whether an operand of a command is out of bounds (R383, R386 to R392). -/
def State.operandBounds (s : State) (part engine : Nat) (bs : List Byte) : Bool :=
  (waitEn bs && (s.physCtr part (waitCtr bs)).isNone) || (sigEn bs && (s.physCtr part (sigCtr bs)).isNone) ||
  match byteAt bs 0 with
  | 0x10 => s.extentBad part (addrAt bs 32) (8 * byteAt bs 31)
  | 0x21 => s.extentBad part (addrAt bs 40) (bytesN bs 52 48)
  | 0x30 => (s.memAt part (addrAt bs 32) 192).isNone
  | 0x31 => let n := countArg bs % 8192
    (s.memAt part (addrAt bs 32) n).isNone || !inBlock (addrAt bs 32) n || !inBlock (addrAt bs 40) n ||
    (match aperture (addrAt bs 40) with
      | some w => (s.engineFlow engine part w).isNone
      | none => true) ||
    (bitN (byteAt bs 24) 3 && (s.memAt part (addrAt bs 48) n).isNone)
  | 0x32 => (s.memAt part (addrAt bs 32) (countArg bs % 8192)).isNone ||
    (s.engineFlow engine part (bytesN bs 43 40 % 2 ^ 18)).isNone
  | 0x40 | 0x41 => (s.physGraph engine part (graphArg bs)).isNone ||
    (s.memAt part (addrAt bs 32) (128 * countArg bs)).isNone
  | 0x42 | 0x43 | 0x44 => (s.physGraph engine part (graphArg bs)).isNone
  | 0xC0 => (s.physCtr part (bytesN bs 25 24)).isNone
  | _ => false

/-- The reason for which a command is dropped at its fetch (R383, R425); none when it is accepted. [log 89: DEDUCED] -/
def State.cmdCheck (s : State) (part engine : Nat) (kernel : Bool) (bs : List Byte) : Option Status :=
  if !engineAccepts engine (byteAt bs 0) then some .format
  else if decide (0xC0 ≤ byteAt bs 0) && !kernel && engine != flintEngine then some .priv
  else if cmdReserved bs || operandReserved bs then some .format
  else if s.operandBounds part engine bs then some .bounds
  else none

/-! ### Completion order, drops and faults (R382, R383, R395) -/

/-- TQ_DONE_SEQ moves on over what has completed (R382): `n` sequence numbers are ahead of it. -/
def State.advanceSeq (s : State) (q : Nat) : Nat → State
  | 0 => s
  | n + 1 =>
    let x := s.queue q
    let next := (s.reg (queueReg q 0x18)).toNat + 1
    if x.ahead.contains next then
      ((s.setQueue q { x with ahead := x.ahead.filter (· != next) }).setReg (queueReg q 0x18)
        (BitVec.ofNat 64 next)).advanceSeq q n
    else s

/-- A sequence number of a queue counts as completed (R382). -/
def State.seqDone (s : State) (q seq : Nat) : State :=
  let x := s.queue q
  (s.setQueue q { x with ahead := seq :: x.ahead }).advanceSeq q (x.ahead.length + 1)

/-- An ignored command or doorbell is counted and recorded (R380, R383). -/
def State.queueIgnored (s : State) (q v : Nat) (reason : Status) : State :=
  ((s.count (queueReg q 0x34) 1).setReg (queueReg q 0x38) (BitVec.ofNat 64 (reason.code + v * 256))).putBit
    (queueReg q 0x20) 7 true

/-- A fetched command leaves the front ends. -/
def State.removeCmd (s : State) (cid : Nat) : State := { s with cmds := s.cmds.filter fun c => c.cid != cid }

/-- A command is dropped as a host error (R12): it counts as completed and signals nothing. A graph node that its
target drops completes with the reason. [log 90: DEDUCED] -/
def State.dropCmd (s : State) (c : Cmd) (reason : Status) : State :=
  match c.origin with
  | .queue q seq => ((s.removeCmd c.cid).queueIgnored q seq reason).seqDone q seq
  | .node _ _ => s.finish c.cid reason

/-- A fault of a queue (R395): counted, latched while FAULT_SEEN is 0, and its interrupt raised. -/
def State.queueFault (s : State) (q : Nat) (st : Status) (seq : Nat) : State :=
  let s := s.count (queueReg q 0x30) 1
  let s := if flag (s.reg (queueReg q 0x20)) 2 then s
    else (s.setReg (queueReg q 0x28) (BitVec.ofNat 64 (st.code + seq * 256))).putBit (queueReg q 0x20) 2 true
  s.queueInt q

/-- The bit of TQ_STATUS that a result status sets (R387). -/
def resultBit : Status → Option Nat
  | .sat => some 4 | .inexact => some 5 | .ovf => some 6
  | _ => none

/-- A command signals when it completes with OK, SAT, INEXACT or OVF (R387). -/
def Status.signals : Status → Bool
  | .ok => true | .sat => true | .inexact => true | .ovf => true
  | _ => false

/-- The signal of a command (R387). -/
def State.signalCmd (s : State) (c : Cmd) (st : Status) : State :=
  if sigEn c.bytes && st.signals then
    match s.physCtr c.part (sigCtr c.bytes) with
    | some i => s.ctrAdd i (sigVal c.bytes)
    | none => s
  else s

/-- Whether the QDESTROY of its own queue aborted a command (R397, R398): it was asked to stop, and its status stands with
or before ABORTED in R14. One that completed all the same had not been aborted. [log 160: DEDUCED] -/
def Cmd.destroyed (c : Cmd) (st : Status) : Bool := c.abortReq && decide (st.rank ≤ Status.aborted.rank)

/-- COMMAND_COMPLETE (R382, R387, R395, R397): a command of a queue that has its final status reports it. One that a
destroy of its own queue aborted counts for nothing. -/
def execCommandComplete (cid : Nat) (s : State) : Host.Outcome State Fault Refusal :=
  .next (match s.cmd? cid with
    | none => s
    | some c => match c.origin, c.phase with
      | .queue q seq, .done st =>
        let s := s.removeCmd cid
        if c.destroyed st then s
        else
          let s := if st.isFault then s.queueFault q st seq else s
          let s := match resultBit st with
            | some b => s.putBit (queueReg q 0x20) b true
            | none => s
          (s.signalCmd c st).seqDone q seq
      | _, _ => s)

/-! ### Aborts (R261, R397, R404) -/

/-- A launch replaced. -/
def State.setGlaunch (s : State) (g : GLaunch) : State :=
  { s with glaunches := s.glaunches.map fun h => if h.id = g.id then g else h }

/-- Whether every node of a launch has completed. -/
def GLaunch.allDone (g : GLaunch) : Bool :=
  g.phase.all fun p => match p with
    | .done _ => true
    | _ => false

/-- The first status under R14 over a launch's nodes. -/
def GLaunch.status (g : GLaunch) : Status :=
  g.phase.foldl (fun st p => match p with
    | .done x => st.merge x
    | _ => st) .ok

/-- A version that is neither current nor pending, and that no launch uses, is freed (R402). -/
def Version.kept (v : Version) : Bool := v.current || v.pending || decide (0 < v.launches)

/-- A launch whose nodes have all completed ends: its version is released and its command completes (R402, R403). -/
def State.settleLaunch (s : State) (id : Nat) : State :=
  match s.glaunch? id with
  | none => s
  | some g =>
    if !g.allDone then s
    else
      let s := { s with
        glaunches := s.glaunches.filter fun h => h.id != id
        versions := (s.versions.map fun (v : Version) =>
          if v.graph = g.version.graph ∧ v.number = g.version.number ∧ v.pending = false then
            { v with launches := v.launches - 1 } else v).filter Version.kept }
      s.finish g.cid g.status

/-- The engine's work on a running command is asked to stop at its own boundary (R190, R261, R369). -/
def State.abortEngine (s : State) (c : Cmd) : State :=
  match c.opc with
  | 0x10 =>
    if (s.tile c.engine).launches.contains c.cid then s.finish c.cid .aborted else s.abortWork c.engine c.cid
  | 0x20 =>
    let ch := 512 + 8 * (c.engine - 128) + byteAt c.bytes 24 % 8
    let x := s.chan ch
    if x.flight.any Desc.isRing then s.abortRing ch
    else (s.setChan ch { x with posts := x.posts.filter fun (p : Nat × BitVec 16 × Status) => p.1 != c.cid }).finish
      c.cid .aborted
  | 0x21 =>
    let ch := 512 + 8 * (c.engine - 128) + byteAt c.bytes 24 % 8
    let x := s.chan ch
    s.setChan ch { x with flight := x.flight.map fun d => match d.origin with
      | .host cid _ => if cid = c.cid then d.ended .aborted else d
      | _ => d }
  | 0x30 => match s.jobs.find? fun j => j.cid == c.cid with
    | some j => s.jobFails j .aborted
    | none => s
  | 0x31 | 0x32 =>
    let drop := fun (x : Stored) => if x.owner = .cmd c.cid then { x with owner := .none } else x
    (s.flows.foldl (fun s (e : Nat × Flow) => s.setFlow e.1
      { e.2 with queue := e.2.queue.map drop, store := e.2.store.map drop }) s).finish c.cid .aborted
  | _ => s

/-- An abort of a fetched command that is no graph launch: one that has not started is discarded at once, one that runs
is asked to stop. -/
def State.abortSimple (s : State) (c : Cmd) : State :=
  match c.phase with
  | .done _ => s
  | .running => (s.setCmd { c with abortReq := true }).abortEngine c
  | _ => (s.setCmd { c with abortReq := true }).finish c.cid .aborted

/-- A node's phase in its launch. -/
def State.setNode (s : State) (id n : Nat) (p : NodePhase) : State :=
  match s.glaunch? id with
  | some g => s.setGlaunch { g with phase := listSet g.phase n p }
  | none => s

/-- The abort of a launch (R404): unreleased nodes complete ABORTED, nodes held for their waits are discarded, posted
ones stop at their targets' boundaries. -/
def State.abortLaunch (s : State) (id : Nat) : State :=
  match s.glaunch? id with
  | none => s
  | some g =>
    let s := s.setGlaunch { g with phase := g.phase.map fun p => match p with
      | .unreleased => .done .aborted
      | .held => .done .aborted
      | x => x }
    let s := (s.cmds.filter fun c => match c.origin with
        | .node l _ => l == id
        | .queue _ _ => false).foldl
      (fun s c => if c.phase = .waiting then s.removeCmd c.cid else s.abortSimple c) s
    s.settleLaunch id

/-- The abort of a fetched command (R397). -/
def State.abortCmd (s : State) (c : Cmd) : State :=
  if c.phase = .running ∧ c.opc = 0x43 then
    match s.glaunches.find? fun g => g.cid == c.cid with
    | some g => (s.setCmd { c with abortReq := true }).abortLaunch g.id
    | none => s
  else s.abortSimple c

/-! ### Administration (R378, R379, R397, R409) -/

/-- QDESTROY of an ACTIVE queue (R397): it becomes DESTROYING, and what it has in flight is aborted. -/
def State.destroyQueue (s : State) (q : Nat) : State :=
  if s.queueState q ≠ 1 then s
  else (s.queueCmds q).foldl (fun s c => s.abortCmd c) (s.putReg (queueReg q 0x20) 1 0 2)

/-- Queues that belong to a VF of a partition (R379). -/
def State.vfQueues (s : State) (part fn : Nat) : List Nat :=
  (span (part * 2048) (if s.split then 2048 else 4096)).filter fun q => s.vfQueue fn q

/-- Whether QCREATE takes effect (R378 to R381): the queue is FREE or DESTROYED, its engine lies in the partition, its
size and base are legal, and a VF keeps at most 256 queues. [log 92: DEDUCED] -/
def State.mayCreate (s : State) (part q : Nat) : Bool :=
  let cfg := s.reg (queueReg q 0)
  let fn := field cfg 13 9
  let size := field cfg 18 14
  (s.queueState q == 0 || s.queueState q == 3) &&
    (s.mode == .recovery || (s.physEngine part (field cfg 7 0)).isSome) &&
    decide (1 ≤ size) && decide (size ≤ 16) &&
    (s.mode == .recovery || flag cfg 19 || field (s.reg (queueReg q 8)) 63 52 == 0) &&
    (fn == 0 || s.queueState q == 3 || decide ((s.vfQueues part fn).length < 256))

/-- A queue starts ACTIVE with cleared indices, status, records and counters (R378). -/
def State.createQueue (s : State) (q : Nat) : State :=
  let s := [0x10, 0x14, 0x18, 0x28, 0x30, 0x34, 0x38, 0x48, 0x50].foldl (fun s o => s.setReg (queueReg q o) 0) s
  (s.setReg (queueReg q 0x20) 1).setQueue q Queue.reset

/-- TQ_ADMIN_STATUS after an administration write (R379). -/
def State.adminDone (s : State) (part q : Nat) (refused : Bool) : State :=
  s.setReg (adminBank part + 0x600004) (BitVec.ofNat 64 (q % 4096 + bit1 refused 12))

/-- A write of TQ_ADMIN by a partition's kernel path (R378, R379, R409); OP = 3 is ignored. -/
def State.adminWrite (s : State) (part q op : Nat) : State :=
  match s.physQueue part q with
  | none => s.adminDone part q true
  | some p =>
    if s.dieLost (queueDie p) then s.adminDone part q true
    else match op with
      | 0 => s.adminDone part q false
      | 1 => if s.mayCreate part p then (s.createQueue p).adminDone part q false else s.adminDone part q true
      | 2 => if s.queueState p = 1 ∨ s.queueState p = 2 then (s.destroyQueue p).adminDone part q false
        else s.adminDone part q true
      | _ => s.adminDone part q true

/-- The administration register of the partition whose kernel path a host access is; in recovery mode the PF of either
port creates queue 0, with LOC = 1 and Flint as its engine (R424). [log 92: DEDUCED] -/
def State.adminAccess (s : State) (path : Path) (q op : Nat) : State :=
  match s.kernelPath path with
  | some part => s.adminWrite part q op
  | none => match path with
    | .bar0 p fn =>
      if s.mode = .recovery ∧ fn.val = 0 ∧ s.portServes p = true ∧ q = 0 then
        s.adminWrite 0 0 op
      else s
    | .bar4 _ => s

/-- QCREATE (R378). -/
def execQcreate (path : Path) (q : Fin 4096) (s : State) : Host.Outcome State Fault Refusal :=
  .next (s.adminAccess path q 1)

/-- QDESTROY (R397). -/
def execQdestroy (path : Path) (q : Fin 4096) (s : State) : Host.Outcome State Fault Refusal :=
  .next (s.adminAccess path q 2)

/-- QDESTROY_DONE (R397): once no engine holds work of the queue any more, the queue becomes DESTROYED. -/
def execQdestroyDone (q : Fin 4096) (s : State) : Host.Outcome State Fault Refusal :=
  .next (if s.queueState q = 2 ∧ s.queueCmds q = [] then
      (s.setQueue q { s.queue q with ahead := [] }).putReg (queueReg q 0x20) 1 0 3
    else s)

/-! ### Doorbells and fetch (R380, R383, R384) -/

/-- A write of TQ_TAIL of a queue (R380). -/
def State.writeTail (s : State) (q v : Nat) : State :=
  let head := (s.reg (queueReg q 0x14)).toNat
  let size := 2 ^ field (s.reg (queueReg q 0)) 18 14
  if s.queueState q ≠ 1 then s
  else if size < (v + 65536 - head) % 65536 then s.queueIgnored q v .bounds
  else s.setReg (queueReg q 0x10) (BitVec.ofNat 64 v)

/-- The queue page a host's doorbell reaches: in recovery mode queue 0 through the PF of either port (R424). -/
def State.doorbell (s : State) (path : Path) (q : Nat) : Option Nat :=
  match s.queuePath path q with
  | some x => some x.1
  | none => match path with
    | .bar0 p fn => if s.mode = .recovery ∧ fn.val = 0 ∧ s.portServes p = true ∧ q = 0 then some 0 else none
    | .bar4 _ => none

/-- TQ_TAIL_WRITE (R380). -/
def execTqTailWrite (path : Path) (q : Fin 4096) (v : BitVec 32) (s : State) : Host.Outcome State Fault Refusal :=
  .next (match s.doorbell path q with
    | some p => s.writeTail p (v.toNat % 65536)
    | none => s)

/-- Whether a function of a port may reach host memory: its link up, its port serving, Bus Master Enable set
(R384, R445). [log 6: DESIGN CHOICE] -/
def State.hostReach (s : State) (port fn : Nat) : Bool :=
  s.portServes port && (s.port port).linkUp && (s.port port).busMaster.toNat.testBit fn

/-- A request to host memory of a function of a port for a queue (R380, R390): with the queue's PASID when PASID_EN = 1,
and through ATS when the function has it enabled. -/
def State.hostReq (s : State) (q : Option Nat) (port fn addr : Nat) : HostReq :=
  { port := port, fn := fn, addr := addr % 2 ^ 64
    pasid := match q with
      | some q => if flag (s.reg (queueReg q 0)) 20 then some (field (s.reg (queueReg q 4)) 19 0) else none
      | none => none
    ats := (s.port port).ats.toNat.testBit fn }

/-- The port of a queue's host memory: its partition's; in recovery mode one that has been released (R424). -/
def State.queuePort (s : State) (q : Nat) : Nat :=
  if s.mode = .recovery then (if (s.port 0).released then 0 else 1) else s.portOf (s.queuePart q)

/-- A fetch of 64 bytes of host memory for a queue (R376, R380, R384): a request leaves when its function may reach the
host, and `host` answers it. -/
def State.fetchHost (s : State) (q engine addr : Nat) (host : HostReply) : Status × List Byte × State :=
  let port := s.queuePort q
  let fn := field (s.reg (queueReg q 0)) 13 9
  if s.hostReach port fn then
    let s := (s.sendHost (engineSrc engine) port 64 true).emit (.hostRead (s.hostReq (some q) port fn addr) 64)
    match host with
    | .data bs => (.ok, (bs ++ List.replicate 64 0).take 64, s)
    | .busError => (.bus, [], s)
  else (.bus, [], s)

/-- The entry at TQ_HEAD (R380): the status of its fetch, from the die that holds the queue, and its bytes. A ring that lies
outside memory gives BOUNDS. [log 91: DEDUCED] [log 137: DEDUCED] -/
def State.fetchEntry (s : State) (q engine : Nat) (host : HostReply) : Status × List Byte × State :=
  let cfg := s.reg (queueReg q 0)
  let at_ := field (s.reg (queueReg q 8)) 63 6 * 64 + 64 * ((s.reg (queueReg q 0x14)).toNat % 2 ^ field cfg 18 14)
  if flag cfg 19 ∨ s.mode = .recovery then s.fetchHost q engine at_ host
  else match s.memAt (s.queuePart q) (at_ % 2 ^ 52) 64 with
    | none => (.bounds, [], s)
    | some a =>
      if s.contained && decide (a < 0x8000000000) then (.dieLost, [], s)
      else
        let (st, s) := s.memReadFrom (queueDie q) (engineSrc engine) false a 64
        (st, s.bytes a 64, s)

/-- A command that passed its checks: it waits at the head, or is passed to its engine; on a lost engine, or in the
contained state, it completes with DIE_LOST, on a retired tile with CHK, without running (R447, R450, R464). -/
def State.takeIn (s : State) (q engine seq : Nat) (bs : List Byte) : State :=
  let phase : CmdPhase :=
    if s.contained || s.pathLost (queueDie q) (engineDie engine) then .done .dieLost
    else if decide (engine < 128) && s.retired engine then .done .chk
    else if waitEn bs then .waiting else .passed
  let c : Cmd :=
    { cid := s.nextCid, origin := .queue q seq, engine := engine, kernel := flag (s.reg (queueReg q 0)) 8
      part := s.queuePart q, bytes := bs, phase := phase, stalled := false, abortReq := false }
  { s with cmds := s.cmds ++ [c], nextCid := s.nextCid + 1 }

/-- QUEUE_FETCH (R314, R383, R384): in its queue's turn the front end fetches and checks the entry at TQ_HEAD; a fetch
fault halts the queue's fetch. [log 91: DEDUCED] [log 129: DESIGN CHOICE] [log 137: DEDUCED] -/
def execQueueFetch (q : Fin 4096) (host : HostReply) (s : State) : Host.Outcome State Fault Refusal :=
  .next (match s.queueEngine q with
    | none => s
    | some engine =>
      if s.turnOf engine ≠ some q.val then s
      else
        let seq := (s.queue q).nextSeq
        let (st, bs, s) := (s.turnTaken engine q).fetchEntry q engine host
        if st != .ok then (s.putBit (queueReg q 0x20) 8 true).queueFault q st seq
        else
          let s := s.setReg (queueReg q 0x14) (BitVec.ofNat 64 (((s.reg (queueReg q 0x14)).toNat + 1) % 65536))
          let s := s.setQueue q { s.queue q with nextSeq := seq + 1 }
          match s.cmdCheck (s.queuePart q) engine (flag (s.reg (queueReg q 0)) 8) bs with
          | some reason => (s.queueIgnored q seq reason).seqDone q seq
          | none => s.takeIn q engine seq bs)

/-! ### Waits (R387, R394, R403, R448) -/

/-- What a command's wait is: met, not met, or on a counter that is lost. -/
inductive WaitState where
  | met | unmet | lost
  deriving DecidableEq, Repr

/-- A command's wait, examined from the die of its front end (R387, R393, R448). -/
def State.waitState (s : State) (c : Cmd) (die : Nat) : WaitState :=
  if !waitEn c.bytes then .met
  else match s.physCtr c.part (waitCtr c.bytes) with
    | none => .unmet
    | some i => if s.pathLost die (ctrDie i) then .lost
      else if waitVal c.bytes ≤ (s.ctr i).toNat then .met else .unmet

/-- Room in a target's input for a graph engine: 16 nodes (R403). -/
def State.inputRoom (s : State) (c : Cmd) : Bool :=
  decide ((s.inputNodes c.engine (s.nodeEngine c - 162)).length < 16)

/-- A held node is posted to its target, behind those in its input (R403); a lost engine completes it with DIE_LOST
(R447). -/
def State.postNode (s : State) (c : Cmd) : State :=
  match c.origin with
  | .node l n =>
    let s := s.setNode l n .posted
    if s.contained || s.pathLost (engineDie (s.nodeEngine c)) (engineDie c.engine) then s.finish c.cid .dieLost
    else { s with cmds := (s.removeCmd c.cid).cmds ++ [{ c with phase := .passed }] }
  | .queue _ _ => s

/-- Nodes held in a graph engine by launches of a queue, in their order. [log 94: DEDUCED] -/
def State.heldNodes (s : State) (q : Nat) : List Cmd :=
  s.cmds.filter fun c => c.isNode && c.phase == .waiting && s.cmdQueue c.cid == some q

/-- The command that waits at the head of a queue. -/
def State.headCmd (s : State) (q : Nat) : Option Cmd := (s.queueCmds q).find? fun c => c.phase == .waiting

/-- WAIT_GE_RELEASE (R387, R403): the command at a queue's head, or the next node that a launch of the queue holds,
goes on once its wait is met; a wait on a lost counter completes with DIE_LOST (R448). [log 94: DEDUCED] -/
def execWaitGeRelease (q : Fin 4096) (s : State) : Host.Outcome State Fault Refusal :=
  let ready := fun (c : Cmd) => s.waitState c (engineDie (s.nodeEngine c)) != .unmet
  .next (match (s.headCmd q).filter fun c => s.waitState c (queueDie q) != .unmet with
    | some c => if s.waitState c (queueDie q) = .lost then s.finish c.cid .dieLost
      else s.setCmd { c with phase := .passed }
    | none => match (s.heldNodes q).find? fun c => ready c && s.inputRoom c with
      | some c => if s.waitState c (engineDie (s.nodeEngine c)) = .lost then
          match c.origin with
          | .node l n => (s.setNode l n .posted).finish c.cid .dieLost
          | .queue _ _ => s
        else s.postNode c
      | none => s)

/-- WAIT_STALL (R394): a wait that has reached its queue's limit is recorded once, and the command goes on waiting. -/
def execWaitStall (q : Fin 4096) (s : State) : Host.Outcome State Fault Refusal :=
  let fresh := fun (c : Cmd) => !c.stalled && waitEn c.bytes
  .next (match firstSome ((s.headCmd q).filter fresh) ((s.heldNodes q).find? fresh) with
    | none => s
    | some c =>
      if (s.reg (queueReg q 0x40)).toNat = 0 then s
      else
        let seq := match c.origin with
          | .queue _ n => n
          | .node l _ => match (s.glaunch? l).bind fun g => s.cmd? g.cid with
            | some d => match d.origin with
              | .queue _ n => n
              | .node _ _ => 0
            | none => 0
        let s := s.setCmd { c with stalled := true }
        let s := s.setReg (queueReg q 0x48) (BitVec.ofNat 64 (waitCtr c.bytes + seq * 65536))
        let s := s.setReg (queueReg q 0x50) (BitVec.ofNat 64 (waitVal c.bytes))
        (s.putBit (queueReg q 0x20) 3 true).queueInt q)

/-! ### Commands every engine accepts, and counters (R387, R392, R408) -/

/-- NOP (R387): it completes at once; its wait and its signal are the WAIT_GE and SIGNAL commands. -/
def execNop (cid : Nat) (s : State) : Host.Outcome State Fault Refusal :=
  .next (match s.passed cid 0x00 with
    | some c => (s.taken c).finish cid .ok
    | none => s)

/-- CTR_SET (R392). -/
def execCtrSet (cid : Nat) (s : State) : Host.Outcome State Fault Refusal :=
  .next (match s.passed cid 0xC0 with
    | none => s
    | some c => match s.physCtr c.part (bytesN c.bytes 25 24) with
      | some i => ((s.taken c).ctrSet i (BitVec.ofNat 64 (bytesN c.bytes 39 32))).finish cid .ok
      | none => (s.taken c).dropCmd c .bounds)

/-- The partition a host access to the counters belongs to (R408, R410), and whether it is the kernel path. -/
def State.counterPath (s : State) (path : Path) : Option (Nat × Bool) :=
  match s.kernelPath path with
  | some part => some (part, true)
  | none => match s.vfPath path with
    | some x => some (x.1, false)
    | none => none

/-- TQ_CTR_ADD_WRITE (R393, R408). -/
def execTqCtrAddWrite (path : Path) (i : Fin 65536) (v : BitVec 64) (s : State) : Host.Outcome State Fault Refusal :=
  .next (match s.counterPath path with
    | none => s
    | some x => match s.physCtr x.1 i with
      | some k => s.ctrAdd k v
      | none => s)

/-- TQ_CTR_VALUE_WRITE (R408): from the kernel path only. -/
def execTqCtrValueWrite (path : Path) (i : Fin 65536) (v : BitVec 64) (s : State) : Host.Outcome State Fault Refusal :=
  .next (match s.kernelPath path with
    | none => s
    | some part => match s.physCtr part i with
      | some k => s.ctrSet k v
      | none => s)

end Sys2Proof.Machine
end

