-- ==== Sys2Proof/Machine/Graph.lean ====
section
/-! DEFINITION. Stored graphs: definition, patching, commit, launch and deletion, and the completion of nodes
(R399 to R405). -/
namespace Sys2Proof.Machine

/-! ### Stores and versions (R399, R402, R409) -/

/-- The compute die whose graph engine holds a graph. -/
def graphDie (g : Nat) : Nat := g / 2048

/-- The versions that a die's graph engine holds. -/
def State.dieVersions (s : State) (d : Nat) : List Version :=
  s.versions.filter fun v => graphDie v.graph == d

/-- Node slots in use on a die: a slot that versions share counts once (R401, R402). -/
def State.usedSlots (s : State) (d : Nat) : List Nat :=
  (((s.dieVersions d).map fun v => v.nodes.map (·.slot)).flatten).eraseDups

/-- FREE_NODES of a die's graph engine. [log 95: DEDUCED] -/
def State.freeNodes (s : State) (d : Nat) : Nat := 131072 - (s.usedSlots d).length

/-- Launches in flight on a die's graph engine. -/
def State.dieLaunches (s : State) (d : Nat) : List GLaunch :=
  s.glaunches.filter fun g => graphDie g.version.graph == d

/-- FREE_PEND of a die's graph engine. -/
def State.freePend (s : State) (d : Nat) : Nat :=
  262144 - ((s.dieLaunches d).map fun g => g.version.nodes.length).sum

/-- A slot number that no version uses, and none above it. -/
def State.nextSlot (s : State) : Nat :=
  (s.versions.map fun v => v.nodes.foldl (fun m n => max m (n.slot + 1)) 0).foldl max 0

/-- The current and the pending version of a graph. -/
def State.current? (s : State) (g : Nat) : Option Version := s.versions.find? fun v => v.graph == g && v.current
def State.pending? (s : State) (g : Nat) : Option Version := s.versions.find? fun v => v.graph == g && v.pending

/-- Live versions of a graph (R402, R409). -/
def State.liveVersions (s : State) (g : Nat) : List Version :=
  s.versions.filter fun v => v.graph == g && !v.pending && (v.current || decide (0 < v.launches))

/-- The partition of a graph (R31, R399). -/
def State.graphPart (s : State) (g : Nat) : Nat := if s.split then graphDie g else 0

/-- The register of a graph, which holds its owner (R409). -/
def graphReg (g : Nat) : Nat := 0x610000 + 0x10 * g

/-- A graph that holds a version has an owner (R399). [log 93: DEDUCED] -/
def State.graphOwned (s : State) (g : Nat) : Bool := (s.current? g).isSome || (s.pending? g).isSome

/-- The owner's privilege and function. -/
def State.graphKernel (s : State) (g : Nat) : Bool := flag (s.reg (graphReg g)) 6
def State.graphFunc (s : State) (g : Nat) : Nat := field (s.reg (graphReg g)) 11 7

/-! ### Node records (R400, R401) -/

/-- A node from its record. -/
def nodeOf (bs : List Byte) (slot : Nat) : Node :=
  { bytes := bs.take 64, target := bytesN bs 65 64, npred := byteAt bs 66
    succ := (List.range (byteAt bs 67 % 32)).map fun i => bytesN bs (73 + 2 * i) (72 + 2 * i), slot := slot }

/-- A reserved bit, or a reserved value, of a node record. -/
def nodeReserved (bs : List Byte) : Bool :=
  let n := byteAt bs 67 % 32
  decide (32 ≤ byteAt bs 67) || decide (16 < n) || bytesN bs 71 68 != 0 || bytesN bs 127 104 != 0 ||
    bytesN bs 103 (72 + 2 * n) != 0

/-- Whether a node's command is one its target accepts, for a graph of a privilege (R401). -/
def State.nodeCmdOk (s : State) (part : Nat) (kernel : Bool) (target : Nat) (bs : List Byte) : Bool :=
  match s.physEngine part target with
  | none => false
  | some e => decide (byteAt bs 0 < 0x40 ∨ 0x44 < byteAt bs 0) && (s.cmdCheck part e kernel bs).isNone

/-- The nodes of a list that have a predecessor in it. -/
def blockedNodes (nodes : List Node) (alive : List Nat) : List Nat :=
  alive.filter fun i => alive.any fun j => match nodes[j]? with
    | some n => n.succ.contains i
    | none => false

/-- Nodes that remain when those without a predecessor are taken away n times. -/
def peel (nodes : List Node) : Nat → List Nat → List Nat
  | 0, alive => alive
  | n + 1, alive => peel nodes n (blockedNodes nodes alive)

/-- Whether the nodes form no cycle. -/
def acyclic (nodes : List Node) : Bool := (peel nodes nodes.length (List.range nodes.length)).isEmpty

/-- Whether the edges of a definition are well formed: successors in range, NPRED as often as a node is a successor,
no cycle (R401). -/
def edgesOk (nodes : List Node) : Bool :=
  let all := (nodes.map (·.succ)).flatten
  all.all (fun i => decide (i < nodes.length)) &&
    nodes.zipIdx.all (fun (n, i) => n.npred == (all.filter (· == i)).length) && acyclic nodes

/-! ### Management commands -/

/-- A management command at its turn: on a lost engine it completes with DIE_LOST, of another function's graph it is
dropped (R399); else the action runs on its graph. -/
def State.manage (s : State) (cid opc : Nat) (act : Cmd → Nat → State → State) : State :=
  match s.passed cid opc with
  | none => s
  | some c =>
    let s := s.taken c
    if s.dieLost (engineDie c.engine) then s.finish cid .dieLost
    else match s.physGraph c.engine c.part (graphArg c.bytes) with
      | none => s.dropCmd c .bounds
      | some g =>
        if !c.kernel && s.graphOwned g && s.graphFunc g != s.cmdFunc c then s.dropCmd c .priv
        else act c g s

/-- The table of a definition or a patch: its records, or the status its read met (R401). -/
def State.readTable (s : State) (c : Cmd) : Status × List (List Byte) × State :=
  let n := countArg c.bytes
  match s.memAt c.part (addrAt c.bytes 32) (128 * n) with
  | none => (.bounds, [], s)
  | some a =>
    let (st, s) := s.memRead (engineSrc c.engine) a (128 * n)
    (st, (List.range n).map fun i => s.bytes (a + 128 * i) 128, s)

/-- A pending version in place of the one there was. [log 95: DEDUCED] -/
def State.setPendingVersion (s : State) (g : Nat) (nodes : List Node) : State :=
  { s with versions := (s.versions.filter fun v => !(v.graph == g && v.pending)) ++
      [{ graph := g, number := 0, pending := true, current := false, launches := 0, nodes := nodes }] }

/-- The first definition of a graph sets its owner (R399). [log 93: DEDUCED] -/
def State.ownGraph (s : State) (c : Cmd) (g : Nat) : State :=
  if s.graphOwned g then s
  else (s.putBit (graphReg g) 6 c.kernel).putReg (graphReg g) 11 7 (s.cmdFunc c)

/-- GRAPH_DEFINE (R401). -/
def execGraphDefine (cid : Nat) (s : State) : Host.Outcome State Fault Refusal :=
  .next (s.manage cid 0x40 fun c g s =>
    let (st, recs, s) := s.readTable c
    if st = .bounds then s.dropCmd c .bounds
    else if st != .ok then s.finish cid st
    else
      let slot := s.nextSlot
      let nodes := recs.zipIdx.map fun (r, i) => nodeOf r (slot + i)
      let kernel := if s.graphOwned g then s.graphKernel g else c.kernel
      if recs.any nodeReserved || !nodes.all (fun n => s.nodeCmdOk c.part kernel n.target n.bytes) || !edgesOk nodes then
        s.dropCmd c .format
      else if s.freeNodes (graphDie g) < nodes.length then s.finish cid .bounds
      else ((s.ownGraph c g).setPendingVersion g nodes).finish cid .ok)

/-- One entry of a patch: its node index and its command. -/
def patchEntry (bs : List Byte) : Nat × List Byte := (bytesN bs 15 0, (bs.drop 64).take 64)

/-- A node with its command replaced; a slot that another version shares is left to it (R401). -/
def patchNode (shared : List Nat) (slot : Nat) (n : Node) (cmd : List Byte) : Node :=
  { n with bytes := cmd, slot := if shared.contains n.slot then slot else n.slot }

/-- The patched nodes, entry by entry, new slots counting up from one. -/
def patchNodes (shared : List Nat) : List (Nat × List Byte) → Nat → List Node → List Node
  | [], _, nodes => nodes
  | (i, cmd) :: rest, slot, nodes => match nodes[i]? with
    | some n => patchNodes shared rest (slot + 1) (listSet nodes i (patchNode shared slot n cmd))
    | none => patchNodes shared rest slot nodes

/-- GRAPH_PATCH (R401). -/
def execGraphPatch (cid : Nat) (s : State) : Host.Outcome State Fault Refusal :=
  .next (s.manage cid 0x41 fun c g s =>
    match firstSome (s.pending? g) (s.current? g) with
    | none => s.dropCmd c .format
    | some v =>
      let (st, recs, s) := s.readTable c
      if st = .bounds then s.dropCmd c .bounds
      else if st != .ok then s.finish cid st
      else
        let es := recs.map patchEntry
        let kernel := s.graphKernel g
        let bad := recs.any (fun r => bytesN r 63 16 != 0) || es.any fun (e : Nat × List Byte) =>
          match v.nodes[e.1]? with
          | some n => !s.nodeCmdOk c.part kernel n.target e.2
          | none => true
        let others := (s.versions.filter fun w => !(w.graph == g && w.pending)).map fun w => w.nodes.map (·.slot)
        let shared := others.flatten
        let need := ((es.map (·.1)).eraseDups.filter fun i => match v.nodes[i]? with
          | some n => shared.contains n.slot
          | none => false).length
        if bad then s.dropCmd c .format
        else if s.freeNodes (graphDie g) < need then s.finish cid .bounds
        else (s.setPendingVersion g (patchNodes shared es s.nextSlot v.nodes)).finish cid .ok)

/-- A graph's versions after an operation on each, those no longer kept freed. -/
def State.mapVersions (s : State) (f : Version → Version) : State :=
  { s with versions := (s.versions.map f).filter Version.kept }

/-- GRAPH_COMMIT (R402). -/
def execGraphCommit (cid : Nat) (s : State) : Host.Outcome State Fault Refusal :=
  .next (s.manage cid 0x42 fun _ g s =>
    match s.pending? g with
    | none => s.finish cid .ok
    | some _ =>
      if 8 ≤ (s.versions.filter fun v => v.graph == g && !v.pending && decide (0 < v.launches)).length then
        s.finish cid .bounds
      else
        let n := tget (fun _ => 0) s.graphNo g + 1
        (({ s with graphNo := tset (fun _ => 0) s.graphNo g n }).mapVersions fun v =>
          if v.graph ≠ g then v
          else if v.pending then { v with pending := false, current := true, number := n }
          else { v with current := false }).finish cid .ok)

/-- GRAPH_DELETE (R405): the current and pending versions go; live ones go on until their launches complete. -/
def execGraphDelete (cid : Nat) (s : State) : Host.Outcome State Fault Refusal :=
  .next (s.manage cid 0x44 fun _ g s =>
    (s.mapVersions fun v => if v.graph = g then { v with pending := false, current := false } else v).finish cid .ok)

/-! ### Launches (R403) -/

/-- A node is released: it is held in the graph engine until its wait is met and its target's input has room. -/
def State.releaseNode (s : State) (id n : Nat) : State :=
  match s.glaunch? id with
  | none => s
  | some g => match g.version.nodes[n]? with
    | none => s
    | some x =>
      let part := s.graphPart g.version.graph
      match s.physEngine part x.target with
      | none => s
      | some e =>
        let c : Cmd :=
          { cid := s.nextCid, origin := .node id n, engine := e, kernel := g.kernel, part := part, bytes := x.bytes
            phase := .waiting, stalled := false, abortReq := false }
        let s := ({ s with cmds := s.cmds ++ [c], nextCid := s.nextCid + 1 }).setNode id n .held
        if !waitEn c.bytes && s.inputRoom c then s.postNode c else s

/-- GRAPH_LAUNCH (R403). -/
def execGraphLaunch (cid : Nat) (s : State) : Host.Outcome State Fault Refusal :=
  .next (s.manage cid 0x43 fun c g s =>
    match s.current? g with
    | none => s.dropCmd c .format
    | some v =>
      let d := graphDie g
      if 256 ≤ (s.dieLaunches d).length ∨ s.freePend d < v.nodes.length then s.finish cid .bounds
      else
        let s := (s.startCmd c).mapVersions fun w => if w = v then { w with launches := w.launches + 1 } else w
        let l : GLaunch :=
          { id := cid, cid := cid, engine := c.engine, version := v, rem := v.nodes.map (·.npred)
            phase := v.nodes.map fun _ => .unreleased, kernel := s.graphKernel g, func := s.cmdFunc c }
        let s := { s with glaunches := s.glaunches ++ [l] }
        let roots := (List.range v.nodes.length).filter fun i => (v.nodes.map (·.npred)).getD i 1 == 0
        (roots.foldl (fun s n => s.releaseNode cid n) s).settleLaunch cid)

/-- Nodes reachable from a list within n edges. -/
def reachable (nodes : List Node) : Nat → List Nat → List Nat
  | 0, l => l
  | n + 1, l => reachable nodes n ((l ++ (l.map fun i => match nodes[i]? with
      | some x => x.succ
      | none => []).flatten).eraseDups)

/-- A node has completed well: each successor has one predecessor less to wait for, and is released at none (R403). -/
def State.releaseSuccs (s : State) (id : Nat) : List Nat → State
  | [] => s
  | i :: rest => match s.glaunch? id with
    | none => s
    | some g =>
      let r := g.rem.getD i 1 - 1
      let s := s.setGlaunch { g with rem := listSet g.rem i r }
      (if r = 0 ∧ g.phase.getD i .held = .unreleased then s.releaseNode id i else s).releaseSuccs id rest

/-- A node has failed: every node reachable from it and not yet released completes ABORTED (R403). -/
def State.abortSuccs (s : State) (id n : Nat) : State :=
  match s.glaunch? id with
  | none => s
  | some g =>
    let hit := reachable g.version.nodes g.version.nodes.length [n]
    s.setGlaunch { g with phase := g.phase.zipIdx.map fun (p, i) =>
      if p = .unreleased ∧ hit.contains i = true then .done .aborted else p }

/-- GRAPH_NODE_COMPLETE (R403). -/
def execGraphNodeComplete (cid : Nat) (s : State) : Host.Outcome State Fault Refusal :=
  .next (match s.cmd? cid with
    | none => s
    | some c => match c.origin, c.phase with
      | .node id n, .done st =>
        let s := (s.removeCmd cid).setNode id n (.done st)
        let s := if st.signals then
            match (s.glaunch? id).bind fun g => g.version.nodes[n]? with
            | some x => (s.signalCmd c st).releaseSuccs id x.succ
            | none => s
          else s.abortSuccs id n
        s.settleLaunch id
      | _, _ => s)

end Sys2Proof.Machine
end

