-- ==== Sys2Proof/Machine/Loss.lean ====
section
/-! DEFINITION. The loss of a die, and what it takes with it (R44, R446 to R450). -/
namespace Sys2Proof.Machine

/-! ### Flint's messages -/

/-- Whether a host port's die still reaches Flint, on ND0 and for port 1 over seam 3, while Flint's clock runs (R44, R440,
R447, R449). [log 100: DEDUCED] [log 113: DEDUCED] -/
def State.flintReaches (s : State) (port : Nat) : Bool :=
  !s.dieLost 2 && !s.domainLostAt 24 && (port == 0 || (!s.dieLost 3 && !s.domainLostAt 15))

/-- Flint's message on secure channel 8 of every port whose die reaches it (R447). -/
def State.flintSendAll (s : State) (msg : BitVec 32) : State :=
  [0, 1].foldl (fun s p => if s.flintReaches p then s.flintSend p msg else s) s

/-! ### What a die takes with it -/

/-- The seams of a die (R21). -/
def dieSeams (d : Nat) : List Nat :=
  match d with
  | 0 => [0, 1] | 1 => [0, 2] | 2 => [1, 3] | _ => [2, 3]

/-- Whether a credit key is one of a die's sends over a seam: of its arbiters of a seam's roles, three to a seam, or of
seam 3 (log 23). -/
def seamCredit (n i k : Nat) : Bool :=
  k / 4 % 4 == n && (if i = 3 then k / 16 % 8 == arbNum .seam3 else k / 16 % 8 == arbNum .seamRole && k / 16 / 8 / 3 == i)

/-- A neighbour answers every packet that waits for a fenced seam with DIE_LOST, which FENCE_DRAIN shows, and the credits
that the lost die owes it are restored at once (R316). -/
def State.drainSeam (s : State) (n i : Nat) : State :=
  if s.dieLost n then s
  else
    let waits := s.fab.filter fun p => p.waitsFor n i
    let s := { s with credits := s.credits.filter fun (e : Nat × Int) => !seamCredit n i e.1
                      fab := (s.fab.filter fun p => !p.waitsFor n i) ++ waits.flatMap FabPkt.answer }
    if waits.isEmpty then s else s.putBit (fabReg n 0) 3 true

/-- Packets from a lost die are discarded, and so is what stands on it (R316). -/
def State.dropPackets (s : State) (d : Nat) : State :=
  { s with fab := s.fab.filter fun p => (p.cls == .rsp || (Src.mk p.src 0 false).die != d) && match p.path with
      | h :: _ => dieNum h.die != d
      | [] => true }

/-- Each neighbour fences its seam to the die (R316, R447). -/
def State.fenceDie (s : State) (d : Nat) : State :=
  (dieSeams d).foldl (fun s i => (s.putBit (seamReg i 0) 1 true).drainSeam (seamEnd d i) i) (s.dropPackets d)

/-- Adds that wait at adders of a lost compute die are answered DIE_LOST (R316). -/
def State.dropAdds (s : State) (d : Nat) : State :=
  let fromStacks := ((s.hbm.filter fun (e : Nat × Stack) => e.1 / 4 == d).map fun (e : Nat × Stack) =>
    (e.2.elems.map fun a => a.own) ++ (e.2.tiles.map fun a => a.own) ++ e.2.run.toList.map fun a => a.own).flatten
  let fromTiles := ((s.tiles.filter fun (e : Nat × Tile) => tileDie e.1 == d).map fun (e : Nat × Tile) =>
    (e.2.adds.map fun a => a.own) ++ e.2.adder.toList.map fun a => a.own).flatten
  (fromStacks ++ fromTiles).foldl (fun s b => s.addAnswered b .dieLost) s

/-- The state of a lost compute die goes: its tiles, channels, adders and graph engine (R446, R449). -/
def State.dropCompute (s : State) (d : Nat) : State :=
  let s := s.dropAdds d
  { s with
    tiles := s.tiles.filter fun (e : Nat × Tile) => tileDie e.1 != d
    chans := s.chans.filter fun (e : Nat × Chan) => chanDie e.1 != d
    hbm := s.hbm.map fun (e : Nat × Stack) => if e.1 / 4 = d then (e.1, { e.2 with elems := [], tiles := [], run := none }) else e
    glaunches := s.glaunches.filter fun g => graphDie g.version.graph != d
    versions := s.versions.filter fun v => graphDie v.graph != d }

/-- The state of a lost network die goes: its queues, counters, flows, jobs, far ports and links (R448). -/
def State.dropNetwork (s : State) (d : Nat) : State :=
  let nd := d - 2
  let s := (s.liveFlows.filter fun i => flowDie i == d).foldl (fun s i => s.flowError i .dieLost) s
  let s := { s with
    jobs := s.jobs.filter fun j => j.nd != nd
    aborts := s.aborts.filter fun (a : Nat × PendAbort) => a.1 != nd
    arrived := s.arrived.filter fun (a : Nat × Arrival) => a.1 != nd
    forward := s.forward.filter fun (a : Nat × Arrival) => a.1 != nd
    cxl := s.cxl.filter fun (e : Nat × List CxlReq) => e.1 / 2 != nd
    links := s.links.filter fun (e : Nat × Link) => e.1 / 64 != nd
    queues := s.queues.filter fun (e : Nat × Queue) => queueDie e.1 != d
    cmds := s.cmds.filter fun c => match c.origin with
      | .queue q _ => queueDie q != d
      | .node _ _ => true
    watchdog := false }
  ((s.resetRegs (flowReg (nd * 131072) 0) 0x800000).resetRegs (queueReg (nd * 2048) 0) 0x80000).resetRegs
    (ctrReg (nd * 32768)) 0x80000

/-- Commands of engines of a lost die complete with DIE_LOST, and so do those that wait or were passed and whose
engine their front end can no longer reach (R447). -/
def State.lostCmds (s : State) (d : Nat) : State :=
  s.cmds.foldl (fun s c =>
    let from_ := match c.origin with
      | .queue q _ => queueDie q
      | .node _ _ => engineDie (s.nodeEngine c)
    if engineDie c.engine = d then s.finish c.cid .dieLost
    else if c.phase ≠ .running ∧ s.pathLost from_ (engineDie c.engine) = true then s.finish c.cid .dieLost
    else s) s

/-- The contained fault state (R450): every command in flight completes with DIE_LOST, and every flow enters ERROR with
DIE_LOST. -/
def State.contain (s : State) : State :=
  let s := s.putBit 0x4C 8 true
  let s := s.cmds.foldl (fun s c => s.finish c.cid .dieLost) s
  (s.liveFlows.filter fun i => s.flowState i != 3).foldl (fun s i => s.flowFail i .dieLost) s

/-- Whether a partition has a die in service (R31, R442). -/
def State.partAlive (s : State) (part : Nat) : Bool := !s.dieLost part || !s.dieLost (2 + part)

/-- A full reset that R442 asks for in Split mode: both partitions have requested it, or one has and the other has no
die in service. -/
def State.checkFull (s : State) : State :=
  let r0 := flag (s.reg 0x4C) 9
  let r1 := flag (s.reg 0x4C) 10
  if s.split && s.resetDue.isNone && ((r0 && (r1 || !s.partAlive 1)) || (r1 && !s.partAlive 0)) then
    { s with resetDue := some false }
  else s

/-- A die is lost (R446 to R450): `how` is 1 by request, 2 by its clock. A die already lost stays as it is. -/
def State.loseDie (s : State) (d how : Nat) : State :=
  if s.dieLost d then s
  else
    let s := (s.putReg 0x4C (2 * d + 1) (2 * d) how).fenceDie d
    let s := if d < 2 then s.dropCompute d else s.dropNetwork d
    let s := s.lostCmds d
    let s := if d < 2 && !s.dieLocal then s.contain else s
    let s := { s with ppRun := s.ppRun.map fun (r : PpRunSt) => { r with ends := some .dieLost } }
    (s.flintSendAll (BitVec.ofNat 32 (0x2000000 + d))).checkFull

/-- Whether a host access may write GLB_RESET (R440, R451): the kernel path, or the PF of either port in the halted
state and in recovery mode. -/
def State.resetPath (s : State) (path : Path) : Bool :=
  (s.kernelPath path).isSome ||
  match path with
  | .bar0 p fn => fn.val == 0 && (s.mode == .halted || s.mode == .recovery) && s.portServes p
  | .bar4 _ => false

/-- DIE_GO for a partition (R446, R451): in Split mode only for a die of that partition. -/
def State.dieGoBy (s : State) (part d : Nat) : State :=
  if s.split && d % 2 != part then s else s.loseDie d 1

/-- DIE_GO (R446). -/
def execDieGo (path : Path) (die : Die) (s : State) : Host.Outcome State Fault Refusal :=
  .next (if s.resetPath path then
      match path with
      | .bar0 p _ => s.dieGoBy (s.portPart p) (dieNum die)
      | .bar4 _ => s
    else s)

/-- Every link of a network die goes down (R44, R338). -/
def State.opticsDown (s : State) (nd : Nat) : State :=
  (span (16 * nd) 16).foldl (fun s p => (List.range (s.subPorts p)).foldl (fun s j =>
    if s.linkUp p j then s.linkDown p j else s) s) s

/-- What the loss of a clock domain takes down (R42, R44): a die, or the block of the domain, which stays down until start-up
runs again; Flint's clock takes the firmware's service with it. [log 100: DEDUCED] -/
def State.domainDown (s : State) (n : Nat) : State :=
  if n < 4 then s.loseDie n 2
  else
    let s := { s with domainLost := s.domainLost ++ [n] }
    if n < 12 then s.putBit (stackReg (n - 4) 0) 0 false
    else if n < 16 then s.putBit (seamReg (n - 12) 0) 0 false
    else if n < 18 then s.opticsDown (n - 16)
    else if n < 20 then s.setPort (n - 18) { s.port (n - 18) with linkUp := false, released := false }
    else if n < 24 then s.cxlLose (n - 20)
    else s

/-- CLOCK_LOSS (R44): a running domain is reported lost. -/
def execClockLoss (domain : Fin 25) (s : State) : Host.Outcome State Fault Refusal :=
  .next (if flag (s.reg 0x20000) domain then
      ((s.putBit 0x20000 domain false).putBit 0x20004 domain true).domainDown domain
    else s)

end Sys2Proof.Machine
end

