-- ==== Sys2Proof/Machine/Bar2.lean ====
section
/-! DEFINITION. What a host does through PCIe beyond register writes: configuration requests, the BAR2 window and
Function Level Resets (R372 to R377, R409, R439, R445). -/
namespace Sys2Proof.Machine

/-! ### BAR2 (R373, R375, R409) -/

/-- The size of a port's BAR2, as a power of two: the host's choice (R373), else that of the sketch in force (R434). -/
def State.bar2Log2 (s : State) (port : Nat) : Nat :=
  match (s.port port).bar2, s.applied with
  | some n, _ => n
  | none, some k => k.bar2Log2
  | none, none => 36

/-- A bit of a function set or cleared. -/
def putFn (v : BitVec 32) (fn : Nat) (b : Bool) : BitVec 32 := (putFlag (v.setWidth 64) fn b).setWidth 32

/-- A function signals an error that AER has recorded: ERR_NONFATAL, when it is enabled (R375, R414). -/
def State.nonfatal (s : State) (port fn : Nat) : State :=
  if (s.port port).aerEn.toNat.testBit fn then s.emit (.errNonfatal port fn) else s

/-- AER of a function records Completer Abort, and signals it (R375, R414). -/
def State.aerAbort (s : State) (port fn : Nat) : State :=
  (s.setPort port { s.port port with aerAbort := putFn (s.port port).aerAbort fn true }).nonfatal port fn

/-- AER of a function records Poisoned TLP Received (R375). -/
def State.aerPoison (s : State) (port fn : Nat) : State :=
  (s.setPort port { s.port port with aerPoison := putFn (s.port port).aerPoison fn true }).emit (.poisonedTlp port)

/-- The partition that a port's BAR2 opens: in normal service, for a port with resources (R30, R440). -/
def State.bar2Part (s : State) (port : Nat) : Option Nat :=
  if s.mode = .running ∧ s.portServes port = true ∧ s.ownsParts port = true then some (s.portPart port) else none

/-- The memory that n bytes at a BAR2 offset reach (R375); none for any other address. -/
def State.bar2Addr (s : State) (part off n : Nat) : Option Nat :=
  if off + n ≤ 2 ^ s.bar2Log2 (s.portOf part) then s.memAt part (field (s.reg (adminBank part + 0x600008)) 51 0 + off) n else none

/-- BAR2_READ (R375, R449, R450): data, Unsupported Request outside memory, Completer Abort on uncorrectable data and on
memory that is lost or cannot be reached. -/
def execBar2Read (port : Fin 2) (off len : Nat) (s : State) : Host.Outcome State Fault Refusal :=
  if !(Instr.wf (.bar2Read port off len)) then .fault .illFormed
  else .next (if s.dieLost (2 + port) then s
    else match s.bar2Part port with
      | none => s.emit (.unsupported port)
      | some part => match s.bar2Addr part off len with
        | none => s.emit (.unsupported port)
        | some a =>
          let (st, s) := s.memRead (pcieSrc port) a len
          if st = .ok then s.emit (.pcieData port (s.bytes a len))
          else (s.emit (.completerAbort port)).aerAbort port 0)

/-- BAR2_WRITE (R375): performed, or dropped. -/
def execBar2Write (port : Fin 2) (off : Nat) (bytes : List Byte) (poisoned : Bool) (s : State) :
    Host.Outcome State Fault Refusal :=
  if !(Instr.wf (.bar2Write port off bytes poisoned)) then .fault .illFormed
  else .next (if s.dieLost (2 + port) then s
    else match s.bar2Part port with
      | none => s
      | some part =>
        if poisoned then s.aerPoison port 0
        else match s.bar2Addr part off bytes.length with
          | none => s
          | some a => (s.memWrite (pcieSrc port) a bytes).2)

/-- A write of TQ_BAR2_BASE at its offset: a value that is no multiple of the BAR2 size is ignored (R409). -/
def State.writeBar2Base (s : State) (o v : Nat) : State :=
  if v % 2 ^ 52 % 2 ^ s.bar2Log2 (s.portOf (o / 0x10000000)) = 0 then s.setReg o (BitVec.ofNat 64 (v % 2 ^ 52)) else s

/-- TQ_BAR2_BASE_WRITE (R409). -/
def execTqBar2BaseWrite (path : Path) (v : BitVec 64) (s : State) : Host.Outcome State Fault Refusal :=
  .next (s.kernelWrite path 0x600008 fun o s => s.writeBar2Base o v.toNat)

/-- What a configuration request of a released port does (R372, R373, R375, R384): a function's bits are written, what AER has
recorded is read or cleared, an invalidation is answered, BAR2 takes a size from 1 GiB to 512 GiB; TotalVFs is 31, or 0 on a
port without resources (R30, R440). A request beyond this table is not supported and only completes. -/
def State.config (s : State) (port : Nat) (req : CfgReq) : State :=
  let x := s.port port
  let done := fun (s : State) => s.emit (.configDone port)
  match req with
  | .busMaster fn on => done (s.setPort port { x with busMaster := putFn x.busMaster fn on })
  | .ats fn on => done (s.setPort port { x with ats := putFn x.ats fn on })
  | .aerEnable fn on => done (s.setPort port { x with aerEn := putFn x.aerEn fn on })
  | .aerRead fn => s.emit (.configData port (bit1 (x.aerAbort.toNat.testBit fn) 15 + bit1 (x.aerPoison.toNat.testBit fn) 12))
  | .aerClear fn => done (s.setPort port { x with aerAbort := putFn x.aerAbort fn false
                                                  aerPoison := putFn x.aerPoison fn false })
  | .invalidate fn => done (s.emit (.invalidated port fn))
  | .totalVfs => s.emit (.configData port (if s.mode == .running && s.ownsParts port then 31 else 0))
  | .resizeBar2 n => done (if 30 ≤ n ∧ n ≤ 39 then s.setPort port { x with bar2 := some n } else s)
  | .other => done s

/-- PCIE_CONFIG_REQUEST (R372, R373, R439): Retry Status before the port's release. [log 162: PRESUMED] -/
def execPcieConfigRequest (req : Fin 2 × CfgReq) (s : State) : Host.Outcome State Fault Refusal :=
  let port := req.1
  .next (if s.mode = .off ∨ s.mode = .tripped ∨ s.dieLost (2 + port) = true ∨ s.domainLostAt (18 + port) = true then s
    else if (s.port port).released then s.config port req.2 else s.emit (.retryStatus port))

/-! ### Function Level Reset (R377) -/

/-- EN is cleared in every interrupt route of a partition that names a function. -/
def State.clearRoutes (s : State) (part fn : Nat) : State :=
  (List.range 1024).foldl (fun s n =>
    let o := adminBank part + routeReg n
    if field (s.reg o) 12 8 = fn then s.putBit o 15 false else s) s

/-- The graphs of a function of a partition are deleted (R377, R405). -/
def State.deleteGraphs (s : State) (part fn : Nat) : State :=
  let owned := ((s.versions.map fun v => v.graph).eraseDups).filter fun g =>
    s.graphPart g == part && s.graphFunc g == fn && s.graphOwned g
  s.mapVersions fun v => if owned.contains v.graph then { v with pending := false, current := false } else v

/-- The reset of one function of a port: its queues, graphs, MSI-X table and routes. -/
def State.resetFunction (s : State) (port fn : Nat) : State :=
  let s := { s with msix := tclear s.msix (msixKey port fn 0 0) 128
                    msixPend := s.msixPend.filter fun (p : Nat × Nat × Nat) => !(p.1 == port && p.2.1 == fn) }
  if !s.ownsParts port then s
  else
    let part := s.portPart port
    let qs := (span (part * 2048) (if s.split then 2048 else 4096)).filter fun q =>
      s.queueState q == 1 && field (s.reg (queueReg q 0)) 13 9 == fn
    ((qs.foldl (fun s q => s.destroyQueue q) s).deleteGraphs part fn).clearRoutes part fn

/-- A Function Level Reset: of a VF, or of the PF with all of the port's VFs and TQ_BAR2_BASE. [log 96: DEDUCED] -/
def State.functionReset (s : State) (port fn : Nat) : State :=
  if fn ≠ 0 then s.resetFunction port fn
  else
    let s := (List.range 32).foldl (fun s f => s.resetFunction port f) s
    if s.ownsParts port then s.setReg (adminBank (s.portPart port) + 0x600008) 0 else s

/-- FUNCTION_LEVEL_RESET (R377), on a port that serves requests. -/
def execFunctionLevelReset (port : Fin 2) (fn : Fin 32) (s : State) : Host.Outcome State Fault Refusal :=
  .next (if s.portServes port then s.functionReset port fn else s)

end Sys2Proof.Machine
end

