-- ==== Sys2Proof/Machine/Image.lean ====
section
/-! DEFINITION. Signed images (R421, R422) and the sketch (R434, R435). -/
namespace Sys2Proof.Machine

/-! ### Signed images -/

/-- TYPE, VERSION, SVN and LENGTH of an image (R421). -/
def imgType (i : Image) : Nat := byteAt i 4
def imgVersion (i : Image) : Nat := bytesN i 11 8
def imgSvn (i : Image) : Nat := bytesN i 15 12
def imgLen (i : Image) : Nat := bytesN i 23 16

/-- Bytes of a whole image: header, body and signature. -/
def imgTotal (i : Image) : Nat := 64 + imgLen i + 2820

/-- The bytes an image's signature covers, its body and its signature. -/
def imgSigned (i : Image) : List Byte := i.take (64 + imgLen i)
def imgBody (i : Image) : List Byte := (i.drop 64).take (imgLen i)
def imgSig (i : Image) : List Byte := (i.drop (64 + imgLen i)).take 2820

/-- MAGIC and TYPE are as expected, and LENGTH keeps the image inside a region of `size` bytes (R422).
[log 108: DEDUCED] -/
def imgShape (i : Image) (ty size : Nat) : Bool :=
  bytesN i 3 0 == 0x49534B59 && imgType i == ty && decide (imgTotal i ≤ size)

/-- Reserved bits are 0, KEY_ID names a key, and SIG verifies (R422). -/
def imgSealed (i : Image) : Bool :=
  decide (byteAt i 5 < 4) && bytesN i 7 6 == 0 && bytesN i 63 24 == 0 &&
    Config.signatureGood (byteAt i 5) (imgSigned i) (imgSig i)

/-- An image that R422 accepts as one of a type in a region. -/
def imgOk (i : Image) (ty size : Nat) : Bool := imgShape i ty size && imgSealed i

/-- Sizes of the firmware slot, the sketch region and a proof-pack slot (R432, R467). -/
def fwSlot : Nat := 0x4000000
def sketchRegion : Nat := 0x100000
def packSlot : Nat := 0x4000000

/-- A digest: SHAKE256 with 256-bit output over an image's signed bytes, as 32 bytes (R427). -/
def digest (bs : List Byte) : List Byte := (Config.shake256 bs ++ List.replicate 32 0).take 32

/-! ### The sketch -/

/-- Whether a sketch body has its 256 bytes, and the bits that no field uses are 0 (R434). [log 109: DEDUCED] -/
def sketchReserved (b : List Byte) : Bool :=
  b.length == 256 && bytesN b 3 2 == 0 && byteAt b 4 / 32 == 0 && bytesN b 7 5 == 0 && decide (bytesN b 11 8 < 2 ^ 25) &&
  bytesN b 19 13 == 0 && bytesN b 31 28 == 0 && decide (byteAt b 34 < 128) && decide (byteAt b 35 < 8) &&
  bytesN b 39 36 == 0 && bytesN b 47 46 == 0 && ((List.range 32).all fun p => decide (byteAt b (48 + p) < 8)) &&
  ((List.range 16).all fun k => decide (bytesN b (83 + 4 * k) (80 + 4 * k) < 2 ^ 26)) && bytesN b 255 228 == 0

/-- The sketch of an image body (R434). -/
def sketchOf (b : List Byte) : Sketch :=
  { format := bytesN b 1 0, interleave := bitN (byteAt b 4) 0, partition := bitN (byteAt b 4) 1
    owner := Fin.ofNat 2 (bitsN (byteAt b 4) 2 2), profile := BitVec.ofNat 2 (bitsN (byteAt b 4) 4 3)
    domainEn := BitVec.ofNat 25 (bytesN b 11 8), bar2Log2 := byteAt b 12, s0 := [byteAt b 20, byteAt b 21]
    s1 := [byteAt b 22, byteAt b 23, byteAt b 24], s2 := [byteAt b 25, byteAt b 26, byteAt b 27]
    etherType := BitVec.ofNat 16 (bytesN b 33 32), pfc := bitN (byteAt b 34) 0
    pcpReq := BitVec.ofNat 3 (bitsN (byteAt b 34) 3 1), pcpRsp := BitVec.ofNat 3 (bitsN (byteAt b 34) 6 4)
    pcpCol := BitVec.ofNat 3 (byteAt b 35), macBase := BitVec.ofNat 48 (bytesN b 45 40)
    ports := (List.range 32).map fun p => BitVec.ofNat 8 (byteAt b (48 + p))
    regs := (List.range 16).map fun k => BitVec.ofNat 32 (bytesN b (83 + 4 * k) (80 + 4 * k))
    parts := (List.range 21).map fun j => BitVec.ofNat 32 (bytesN b (147 + 4 * j) (144 + 4 * j))
    reservedZero := sketchReserved b }

/-- The roles of one seam's groups: the sum, and every role at least 1 (R23). -/
def rolesOk (roles : List Nat) (groups : Nat) : Bool := roles.sum == groups && roles.all fun r => decide (0 < r)

/-- The rules of R435. [log 109: DEDUCED] -/
def sketchOk (k : Sketch) : Bool :=
  k.format == 1 && k.reservedZero && (!k.partition || (k.interleave && k.owner == 0)) &&
  rolesOk k.s0 128 && rolesOk k.s1 64 && rolesOk k.s2 64 &&
  (([18, 19, 24] ++ List.range 16).all fun n => k.domainEn.toNat.testBit n) &&
  ((List.range 32).all fun p => k.domainEn.toNat.testBit (16 + p / 16) || k.ports.getD p 0 == 0) &&
  decide (30 ≤ k.bar2Log2) && decide (k.bar2Log2 ≤ 39) && k.macBase.toNat % 128 == 0 &&
  (k.ports.all fun b => bitsN b.toNat 2 1 != 3) && (k.regs.all fun r => decide (bitsN r.toNat 13 0 ≤ 9830)) &&
  decide ((k.parts.getD 20 0).toNat < 2 ^ 24)

end Sys2Proof.Machine
end

