-- ==== Sys2Proof/Machine/Startup.lean ====
section
/-! DEFINITION. Power, start-up from stage 0 or 1, release, full resets, the mirror watchdog and the host ports' resets
(R33, R34, R41, R46, R432 to R445, R465). -/
namespace Sys2Proof.Machine

/-! ### What power and resets take away (R33, R34, R441) -/

/-- Far memory, which lies outside the module, keeps its bytes (log 20). [log 104: DEDUCED] -/
def farCells {α : Type} (t : Table α) : Table α :=
  t.filter fun (e : Nat × α) => decide (0x100000000000 ≤ e.1) && decide (e.1 < 0x200000000000)

/-- A host port that is down; its PERST# pin stays as its host holds it. -/
def State.portsDown (s : State) : Table HostPort :=
  [0, 1].foldl (fun t p => tset (fun _ => HostPort.reset) t p { HostPort.reset with perst := (s.port p).perst }) []

/-- The registers at the offsets of a list, and EXT_OWN, which follows the TRST# pin (R466). [log 111: DEDUCED] -/
def State.keepRegs (s : State) (offs : List Nat) : Table Word :=
  (offs.map fun o => (o, s.reg o)).foldl (fun t (e : Nat × Word) => tset regReset t e.1 e.2)
    (tset regReset [] 0xA0010 (putField 0 0 0 (field (s.reg 0xA0010) 0 0)))

/-- Every domain but the Flint and always-on domain in its reset state: of the registers only those listed are left,
of the stacks only their repair logs, which lie in flash (R276, R432).
[log 2: DESIGN CHOICE] [log 20: DEDUCED] [log 103: DEDUCED] [log 104: DEDUCED] -/
def State.loadOff (s : State) (offs : List Nat) : State :=
  { State.reset with
    pending := s.pending, free := s.free, out := s.out, nextCid := s.nextCid, regs := s.keepRegs offs
    mem := farCells s.mem, ecc := farCells s.ecc
    hbm := (s.hbm.map fun (e : Nat × Stack) => (e.1, { Stack.reset with repairLog := e.2.repairLog })).filter
      fun (e : Nat × Stack) => e.2 != Stack.reset
    alwaysOn := s.alwaysOn, mode := s.mode, flash := s.flash, fwRunning := s.fwRunning, mbox := s.mbox
    secure := s.secure, ports := s.portsDown }

/-- The registers of R45 and R451 that the always-on domain keeps without the load rails. -/
def alwaysOnRegs : List Nat := [0x10, 0x40, 0x44, 0x4C, 0x50]

/-- GLB_TRIP for a cause (R45): it tells of the last trip. [log 101: DEDUCED] -/
def tripWord : TripCause → Nat
  | .uv => 1
  | .ov => 2
  | .therm d => 4 + 16 * dieNum d

/-- A power trip (R33, R34). [log 101: DEDUCED] [log 106: DEDUCED] -/
def State.tripNow (s : State) (c : TripCause) : State :=
  { s.loadOff alwaysOnRegs with mode := .tripped, d2hHeld := s.d2hHeld }.setReg 0x10 (BitVec.ofNat 64 (tripWord c))

/-- POWER_TRIP (R33, R34): once the load rails are on. -/
def execPowerTrip (cause : TripCause) (s : State) : Host.Outcome State Fault Refusal :=
  .next (if s.powered then s.tripNow cause else s)

/-! ### Power registers (R41, R46) -/

/-- The cap as PWR_CAP stores it. -/
def capOf (v : Nat) : Nat := max 400 (min 1000 (v % 2048))

/-- PWR_PROFILE_WRITE (R41, R46). -/
def execPwrProfileWrite (path : Path) (v : BitVec 32) (s : State) : Host.Outcome State Fault Refusal :=
  .next (s.kernelWrite path 0x10000 fun o s => s.setReg o (BitVec.ofNat 64 (v.toNat % 4)))

/-- PWR_CAP_WRITE (R41, R46). -/
def execPwrCapWrite (path : Path) (v : BitVec 32) (s : State) : Host.Outcome State Fault Refusal :=
  .next (s.kernelWrite path 0x10004 fun o s => s.setReg o (BitVec.ofNat 64 (capOf v.toNat)))

/-! ### Stages (R437, R438) -/

/-- Milliseconds of GLB_BOOT_TIME, which saturate. -/
def State.bootTime (s : State) (ms : Nat) : State := s.setReg 0x44 (BitVec.ofNat 64 (min ms 0xFFFFF))

/-- Flint's message at every start-up once fewer than 2^20 signature indices remain (R426). [log 112: DEDUCED] -/
def State.keyAlert (s : State) : State :=
  if 2 ^ 40 < s.flash.sigIndex + 2 ^ 20 then s.flintSendAll 0x1000000 else s

/-- GLB_BOOT where start-up stops: HALTED, CAUSE and UNIT (R438). -/
def State.bootStop (s : State) (cause unit : Nat) : State :=
  ((s.putBit 0x40 5 true).putReg 0x40 15 8 cause).putReg 0x40 23 16 unit

/-- Dies whose clocks have not come up are not started (R451). [log 99: DEDUCED] -/
def State.diesDown (s : State) : State :=
  [0, 1, 2, 3].foldl (fun s d => if s.dieState d = 0 then s.putReg 0x4C (2 * d + 1) (2 * d) 3 else s) s

/-- Start-up halts (R438): `clocks` tells that the dies' clocks run. [log 112: DEDUCED] -/
def State.haltBoot (s : State) (inp : StartInputs) (cause unit : Nat) (clocks : Bool) : State :=
  let s := { (s.bootStop cause unit).bootTime inp.millis with mode := .halted }
  let s := if clocks then s else s.diesDown
  if 5 ≤ field (s.reg 0x40) 3 0 then s.keyAlert else s

/-- The end of a stage's work: from stage 6 on, where the clock monitors are armed, the loss of a die's clock during the
stage halts start-up (R44, R438). [log 105: DEDUCED] -/
def State.endStage (inp : StartInputs) (n : Nat) (s : State) : Except State State :=
  match inp.clockLost with
  | some (k, d) =>
    let i := dieNum d
    if k = n ∧ 6 ≤ n then
      .error ((((s.putBit 0x20000 i false).putBit 0x20004 i true).loseDie i 2).haltBoot inp 7 i true)
    else .ok s
  | none => .ok s

/-- Whether the power stage trips during a stage. -/
def tripAt (inp : StartInputs) (n : Nat) : Option TripCause :=
  match inp.trip with
  | some (k, c) => if k = n then some c else none
  | none => none

/-- A stage: a trip during it ends start-up (R438, R444); else its work goes on or stops. [log 106: DEDUCED] -/
def State.stage (inp : StartInputs) (n : Nat) (work : State → Except State State) (s : State) : Except State State :=
  let s := s.putReg 0x40 3 0 n
  match tripAt inp n with
  | some c => .error ((s.bootStop 8 0).tripNow c)
  | none => match work s with
    | .error s => .error s
    | .ok s => s.endStage inp n

/-- ROM (R437): the full-reset count. -/
def State.romStage (s : State) : Except State State :=
  .ok { s with flash := { s.flash with bootCount := s.flash.bootCount + 1 } }

/-- The physical tile of each tile number (R18): the enabled ones of CD0, then those of CD1, in ascending position; physical
tile i of die d is 68d + i. -/
def tileMapOf (enable : BitVec 136) : List Nat :=
  [0, 1].flatMap fun d => ((span (68 * d) 68).filter fun k => enable.toNat.testBit k).take 64

/-- FUSE (R18, R437, R438): the fuse map is sensed. -/
def State.fuseStage (inp : StartInputs) (s : State) : Except State State :=
  match inp.fuseFail with
  | some d => .error (s.haltBoot inp 1 (dieNum d) false)
  | none => .ok { s with tileMap := tileMapOf Config.tileEnable }

/-- FIRMWARE (R423, R424, R438): the slot's image runs and raises the minimum to its SVN, or mask ROM enters recovery
mode. [log 107: DEDUCED] -/
def State.firmwareStage (inp : StartInputs) (s : State) : Except State State :=
  if s.flash.fwValid && inp.fwGood then
    .ok { s with
      fwRunning := s.flash.fwImage
      flash := { s.flash with fwSvnMin := max s.flash.fwSvnMin (imgSvn s.flash.fwImage) } }
  else .error { ((s.putBit 0x40 6 true).bootTime inp.millis).diesDown with mode := .recovery }

/-- The registers that the sketch sets at the SKETCH stage (R434, R436): modes, profile, EtherType, regulators with full
buckets (R287), and the partition map. [log 114: DEDUCED] -/
def State.applySketch (s : State) (k : Sketch) : State :=
  let s := s.setReg 0x8 (BitVec.ofNat 64 (bit1 k.interleave 0 + bit1 k.partition 1 + 4 * k.owner.val))
  let s := s.setReg 0x10000 (k.profile.setWidth 64)
  let s := { s with power := { s.power with profile := k.profile.toNat, order := profileOrder k.profile.toNat } }
  let s := s.setReg 0x70000 (k.etherType.setWidth 64)
  let s := s.setReg 0x70008 (BitVec.ofNat 64 (bit1 k.pfc 0 + 2 * k.pcpReq.toNat + 16 * k.pcpRsp.toNat +
    128 * k.pcpCol.toNat))
  let s := (List.range 32).foldl (fun s j =>
    let cd := j / 16
    let p := j % 16
    let s := s.setReg (memReg cd p 0) ((k.regs.getD p 0).setWidth 64)
    s.setToken cd p (s.regBucket cd p)) s
  (List.range 21).foldl (fun s j => s.setReg (0x54000 + 4 * j) ((k.parts.getD j 0).setWidth 64)) s

/-- SKETCH (R433, R435, R436): the sketch in force, with its SVN raising the sketch minimum. -/
def State.sketchStage (inp : StartInputs) (s : State) : Except State State :=
  if !inp.sketchGood then .error (s.haltBoot inp 2 0 false)
  else if !sketchOk s.flash.sketch then .error (s.haltBoot inp 3 0 false)
  else .ok ({ s with
    applied := some s.flash.sketch, appliedImage := s.flash.sketchImage
    flash := { s.flash with sketchSvnMin := max s.flash.sketchSvnMin s.flash.sketchSvn } }.applySketch s.flash.sketch)

/-- Whether the sketch in force starts a clock domain. -/
def State.domainOn (s : State) (n : Nat) : Bool :=
  match s.applied with
  | some k => k.domainEn.toNat.testBit n
  | none => false

/-- CLOCKS (R437, R438): the PLLs of the started domains lock. -/
def State.clockStage (inp : StartInputs) (s : State) : Except State State :=
  let on := (List.range 25).filter s.domainOn
  match inp.pllFail with
  | some n =>
    if s.domainOn n then
      .error (((on.filter fun k => k != n.val).foldl (fun s k => s.putBit 0x20000 k true) s).haltBoot inp 4 n false)
    else .ok (on.foldl (fun s k => s.putBit 0x20000 k true) s)
  | none => .ok (on.foldl (fun s k => s.putBit 0x20000 k true) s)

/-! ### Seams (R21 to R23, R32, R437) -/

/-- Lane groups of a seam (R21). -/
def seamGroups (i : Nat) : Nat :=
  match i with
  | 0 => 128 | 3 => 32 | _ => 64

/-- The roles that the sketch gives a seam; seam 3 has none and counts as one. [log 132: DEDUCED] -/
def State.seamRoles (s : State) (i : Nat) : List Nat :=
  match s.applied with
  | some k => match i with
    | 0 => k.s0 | 1 => k.s1 | 2 => k.s2 | _ => [32]
  | none => []

/-- Failing lanes at training of the group of a seam in one direction. -/
def laneFailsIn (inp : StartInputs) (seam g : Nat) (dir : Bool) : Nat :=
  ((inp.laneFails.filter fun (e : Nat × Nat × Bool × Nat) => e.1 == seam && e.2.1 == g && e.2.2.1 == dir).map
    fun (e : Nat × Nat × Bool × Nat) => e.2.2.2).sum

/-- Failing lanes of a group in its worse direction: each direction has its own spare, and both share one assignment to a
role, so a group that is out in one direction is out in both (R21 to R23). [log 164: DEDUCED] -/
def laneFailsOf (inp : StartInputs) (seam g : Nat) : Nat := max (laneFailsIn inp seam g false) (laneFailsIn inp seam g true)

/-- A group taken from the role that holds the most, the first listed of equals (R22). -/
def dropGroup (roles : List Nat) : List Nat :=
  let m := roles.foldl max 0
  match roles.findIdx? fun r => r == m with
  | some i => listSet roles i (m - 1)
  | none => roles

/-- The roles after n groups have been taken out. -/
def dropGroups : Nat → List Nat → List Nat
  | 0, r => r
  | n + 1, r => dropGroups n (dropGroup r)

/-- What training finds on a seam: groups on their spare, groups out, the roles left, and whether it comes up (R22). -/
def State.seamTrain (s : State) (inp : StartInputs) (i : Nat) : Nat × Nat × List Nat × Bool :=
  let fails := (List.range (seamGroups i)).map (laneFailsOf inp i)
  let spares := fails.countP fun n => n == 1
  let out := fails.countP fun n => decide (2 ≤ n)
  let roles := dropGroups out (s.seamRoles i)
  (spares, out, roles, decide (out ≤ 8) && roles.all fun r => decide (0 < r))

/-- The registers of a seam after training. -/
def State.setSeam (s : State) (i : Nat) (r : Nat × Nat × List Nat × Bool) : State :=
  let fence := s.split && (i == 0 || i == 3)
  let s := s.setReg (seamReg i 0) (BitVec.ofNat 64 (bit1 r.2.2.2 0 + bit1 fence 1 + 4 * min r.1 255 +
    1024 * min r.2.1 255))
  s.setReg (seamReg i 4) (BitVec.ofNat 64 (r.2.2.1.getD 0 0 + 256 * r.2.2.1.getD 1 0 + 65536 * r.2.2.1.getD 2 0))

/-- SEAMS (R22, R23, R32, R437, R438): lane groups, roles, Split-mode fences; Flint starts updating the mirror watchdog
(R443). -/
def State.seamStage (inp : StartInputs) (s : State) : Except State State :=
  let t := [0, 1, 2, 3].map fun i => (i, s.seamTrain inp i)
  let s := t.foldl (fun s (e : Nat × Nat × Nat × List Nat × Bool) => s.setSeam e.1 e.2) s
  match t.find? fun (e : Nat × Nat × Nat × List Nat × Bool) => !e.2.2.2.2 with
  | some e => .error (s.haltBoot inp 5 e.1 true)
  | none => .ok { s with watchdog := true }

/-! ### Memory, optics and the far tier (R274 to R276, R290, R291, R320, R437) -/

/-- Failing lanes of a pseudo-channel of a stack at training. -/
def pcFails (inp : StartInputs) (st pc : Nat) : Nat :=
  ((inp.hbmLanes.filter fun (e : Fin 8 × Fin 64 × Nat) => e.1.val == st && e.2.1.val == pc).map
    fun (e : Fin 8 × Fin 64 × Nat) => e.2.2).sum

/-- Whether a stack trains (R274): no pseudo-channel has more failing lanes than its 2 redundant ones. -/
def stackTrains (inp : StartInputs) (st : Nat) : Bool := (List.range 64).all fun pc => decide (pcFails inp st pc ≤ 2)

/-- Failing lanes of a stack that training maps onto redundant ones. -/
def stackSpares (inp : StartInputs) (st : Nat) : Nat := ((List.range 64).map (pcFails inp st)).sum

/-- A stack after training: spares, soft repair of its logged rows. Whether a logged row finds no spare row is a free
value, which REPAIR_FULL shows. [log 16: DESIGN CHOICE] -/
def State.trainStack (s : State) (inp : StartInputs) (st : Nat) : State :=
  let s := s.setReg (stackReg st 0) (BitVec.ofNat 64 (1 + 2 * stackSpares inp st))
  if (s.stack st).repairLog = [] then s
  else
    let (f, s) := s.draw
    if f.toNat % 2 = 1 then s.putBit (stackReg st 0) 19 true else s

/-- An optical port at start-up: its mode and MAC; a connector whose laser test finds a failed laser puts its spare in
its place (R320). Links train after release (R437). -/
def State.startOptic (s : State) (inp : StartInputs) (k : Sketch) (p : Nat) : State :=
  let s := (s.setReg (netPortReg p 0) ((k.ports.getD p 0).setWidth 64)).setReg (netPortReg p 8)
    (BitVec.ofNat 64 (k.macBase.toNat + 4 * p))
  match inp.optics[p]? with
  | some t => if s.domainOn (16 + p / 16) && t.laserFail != 0 then s.useSpare p else s
  | none => s

/-- The capacity that a port's targets map, and how many of them (R291). [log 63: DEDUCED] -/
def mapTargets : List Nat → Nat × Nat
  | caps => (caps.take 8).foldl (fun (m : Nat × Nat) c =>
      let n := min (c / 0x10000000 * 0x10000000) (0x40000000000 - m.1)
      if n = 0 then m else (m.1 + n, m.2 + 1)) (0, 0)

/-- A CXL port at start-up (R290, R291, R436, R438): up at x4 and 32 GT/s or better in 256-byte flit mode, its targets
mapped. -/
def State.startCxl (s : State) (inp : StartInputs) (p : Nat) : State :=
  let (w, v, flit) := inp.cxlLink.getD p (0, 0, false)
  if s.domainOn (20 + p) && flit && (w == 4 || w == 8 || w == 16) && (v == 1 || v == 2) then
    let (cap, n) := mapTargets (inp.cxlTargets.getD p [])
    (s.setReg (cxlReg p 0) (BitVec.ofNat 64 (1 + 2 * w + 64 * v + 256 * n))).setReg (cxlReg p 8) (BitVec.ofNat 64 cap)
  else s

/-- MEMORY, OPTICS and CXL (R437, R438). -/
def State.memoryStage (inp : StartInputs) (s : State) : Except State State :=
  match s.applied with
  | none => .ok s
  | some k =>
    let s := ((List.range 8).filter (stackTrains inp)).foldl (fun s st => s.trainStack inp st) s
    let s := (List.range 32).foldl (fun s p => s.startOptic inp k p) s
    let s := (List.range 4).foldl (fun s p => s.startCxl inp p) s
    match (List.range 8).find? fun st => !stackTrains inp st with
    | some f => .error (s.haltBoot inp 6 f true)
    | none => .ok s

/-! ### Release -/

/-- A tile's RETIRED bits (R464, R474, R475). -/
def State.markRetired (s : State) (t : Nat) (b : Bool) : State :=
  (s.putBit (tileBase t + 0x4000) 3 b).putBit (0xA0020 + 4 * (t / 32)) (t % 32) b

/-- RELEASE (R437, R439, R465): every tile of the retirement list is retired, and service starts. -/
def State.releaseStage (inp : StartInputs) (s : State) : Except State State :=
  let s := (s.flash.retired.filter fun t => decide (t < 128)).foldl (fun s t => s.markRetired t true) s
  .ok { (((s.putBit 0x40 4 true).bootTime inp.millis).keyAlert) with mode := .running }

/-- The state a stage chain ends in. -/
def settled : Except State State → State
  | .ok s => s
  | .error s => s

/-- Start-up from stage 1 on (R437). -/
def State.startUp (s : State) (inp : StartInputs) : State :=
  settled ((((((((((s.stage inp 1 State.romStage).bind (State.stage inp 2 (State.fuseStage inp))).bind
    (State.stage inp 3 .ok)).bind (State.stage inp 4 (State.firmwareStage inp))).bind
    (State.stage inp 5 (State.sketchStage inp))).bind (State.stage inp 6 (State.clockStage inp))).bind
    (State.stage inp 7 (State.seamStage inp))).bind (State.stage inp 8 (State.memoryStage inp))).bind
    (State.stage inp 9 .ok)).bind (State.stage inp 10 (State.releaseStage inp)))

/-- COLD_START (R437, R444): the input has risen to 58 V after being below 40 V. Only flash keeps what it held.
[log 10: DESIGN CHOICE] -/
def execColdStart (inp : StartInputs) (s : State) : Host.Outcome State Fault Refusal :=
  if !(Instr.wf (.coldStart inp)) then .fault .illFormed
  else .next (if s.mode = .off then
      match tripAt inp 0 with
      | some c => ({ s.loadOff [] with alwaysOn := true, mbox := [], secure := [] }.bootStop 8 0).tripNow c
      | none => { s.loadOff [] with alwaysOn := true, mbox := [], secure := [] }.startUp inp
    else s)

/-- ALWAYS_ON_DOMAIN_LOSS (R444): below 40 V nothing runs. GLB_TRIP is cleared by the cold start. -/
def execAlwaysOnDomainLoss (s : State) : Host.Outcome State Fault Refusal :=
  .next { s.loadOff [0x10] with alwaysOn := false, mode := .off, mbox := [], secure := [], fwRunning := [] }

/-- FULL_RESET (R441): the full reset that is on its way runs. WDOG tells of its cause; GLB_TRIP, the mailbox channels
and flash are kept. -/
def execFullReset (inp : StartInputs) (s : State) : Host.Outcome State Fault Refusal :=
  if !(Instr.wf (.fullReset inp)) then .fault .illFormed
  else .next (match s.resetDue with
    | none => s
    | some w => ((s.loadOff [0x10]).putBit 0x40 7 w).startUp inp)

/-! ### What starts a full reset (R441 to R444) -/

/-- A full reset is on its way; one that is already stays as it is. [log 102: DEDUCED] -/
def State.askReset (s : State) (wdog : Bool) : State :=
  if s.resetDue.isSome then s else { s with resetDue := some wdog }

/-- A write of FULL for a partition (R442): at once in Whole mode, in the halted state and in recovery mode; in Split mode
it sets the partition's FULL_REQ. -/
def State.fullBy (s : State) (part : Nat) : State :=
  if s.mode = .running ∧ s.split = true then (s.putBit 0x4C (9 + part) true).checkFull else s.askReset false

/-- The partition whose kernel path a host's write of GLB_RESET counts as (R440, R451). -/
def State.resetBy (s : State) (path : Path) : Option Nat :=
  if s.resetPath path then
    match path with
    | .bar0 p _ => some (s.portPart p)
    | .bar4 _ => none
  else none

/-- FULL (R442). -/
def execFull (path : Path) (s : State) : Host.Outcome State Fault Refusal :=
  .next (match s.resetBy path with
    | some part => s.fullBy part
    | none => s)

/-- SMBUS_RESET (R441), while the module is powered; after a power trip only R444 restarts it (R34). -/
def execSmbusReset (s : State) : Host.Outcome State Fault Refusal :=
  .next (if s.powered then s.askReset false else s)

/-- WATCHDOG_UPDATE (R443): the 100 ms start anew. The model holds no time, so nothing else changes (log 21). -/
def execWatchdogUpdate (s : State) : Host.Outcome State Fault Refusal := .next s

/-- WATCHDOG_EXPIRY (R443): 100 ms have passed without an update while the watchdog watches and seam 3 is in service.
[log 21: DESIGN CHOICE] -/
def execWatchdogExpiry (s : State) : Host.Outcome State Fault Refusal :=
  .next (if s.powered && s.watchdog && flag (s.reg (seamReg 3 0)) 0 && !s.dieLost 2 && !s.dieLost 3 then s.askReset true
    else s)

/-- TRIP_RESTART (R444): the conditions for the restart after a power trip hold. [log 102: DEDUCED] -/
def execTripRestart (s : State) : Host.Outcome State Fault Refusal :=
  .next (if s.mode = .tripped ∧ s.alwaysOn = true then s.askReset false else s)

/-! ### Host ports (R439, R440, R445) -/

/-- Whether a port's network die reaches Flint, and for port 1 over a seam 3 that training did not find
failed (R440). [log 113: DEDUCED] -/
def State.portFlint (s : State) (p : Nat) : Bool :=
  s.flintReaches p && (p == 0 || decide (field (s.reg 0x40) 3 0 < 7) || flag (s.reg (seamReg 3 0)) 0)

/-- Whether a port may release (R439, R440): in service, in recovery mode, or halted at stage 3 or later. -/
def State.mayRelease (s : State) (p : Nat) : Bool :=
  !s.domainLostAt (18 + p) && match s.mode with
  | .running => !s.dieLost (2 + p)
  | .recovery => true
  | .halted => decide (3 ≤ field (s.reg 0x40) 3 0) && s.portFlint p
  | .off => false
  | .tripped => false

/-- PORT_RELEASE (R439): a port whose PERST# is deasserted trains its link and leaves retry status. -/
def execPortRelease (port : Fin 2) (s : State) : Host.Outcome State Fault Refusal :=
  let x := s.port port
  .next (if s.mayRelease port && !x.perst && !x.released then s.setPort port { x with linkUp := true, released := true }
    else s)

/-- A port goes down: every function is reset as by a PF Function Level Reset (R377, R445). -/
def State.portReset (s : State) (p : Nat) : State :=
  let s := s.functionReset p 0
  s.setPort p { HostPort.reset with perst := (s.port p).perst }

/-- PERST (R445): the pin is asserted. -/
def execPerst (port : Fin 2) (s : State) : Host.Outcome State Fault Refusal :=
  .next ((s.setPort port { s.port port with perst := true }).portReset port)

/-- HOT_RESET (R445), over a link that is up. -/
def execHotReset (port : Fin 2) (s : State) : Host.Outcome State Fault Refusal :=
  .next (if (s.port port).linkUp then s.portReset port else s)

/-- PERST_DEASSERTION (R439): the pin is deasserted; PORT_RELEASE trains the link once stage 3 has ended. -/
def execPerstDeassertion (port : Fin 2) (s : State) : Host.Outcome State Fault Refusal :=
  .next (s.setPort port { s.port port with perst := false })

/-! ### The sketch region (R433) -/

/-- SKETCH_REGION_WRITE (R433): an image from the IEEE 1149.1 port is checked and stored; it applies from the next full
reset. [log 115: DEDUCED] -/
def execSketchRegionWrite (image : Image) (s : State) : Host.Outcome State Fault Refusal :=
  .next (if s.mode ≠ .off ∧ imgOk image 2 sketchRegion = true ∧ s.flash.sketchSvnMin ≤ imgSvn image then
      { s with flash := { s.flash with sketchImage := image.take (imgTotal image), sketch := sketchOf (imgBody image)
                                       sketchSvn := imgSvn image } }
    else s)

end Sys2Proof.Machine
end

