-- ==== Sys2Proof/Machine/Mailbox.lean ====
section
/-! DEFINITION. The mailbox channels (R411 to R417, R430, R431). -/
namespace Sys2Proof.Machine

/-! ### Sending and acknowledging (R412, R414, R415, R417) -/

/-- Whether a port's BAR4 is served: the port is released and its die reaches Flint, in normal service or halted
(R424, R440, R449). -/
def State.bar4Serves (s : State) (p : Nat) : Bool :=
  s.portServes p && s.flintReaches p && (s.mode == .running || s.mode == .halted)

/-- A message put into an H2D channel: accepted when the channel is empty, else dropped as an overrun, with a Completer
Abort that AER records and signals, and an interrupt (R412, R414, R417). A secure message joins the monitor's queue (R418).
[log 117: DEDUCED] -/
def State.h2dSend (s : State) (p ch : Nat) (v : BitVec 32) : State :=
  let m := s.mail 0 p ch
  if m.isFull then
    let n := min ((s.mboxReg p 2).toNat + 1) 0xFFFFFFFF
    (((s.setMail 0 p ch { m with overrun := true }).setMboxReg p 2 (BitVec.ofNat 32 n)).emit (.completerAbort p)).aerAbort p 0 |>.mboxInt p
  else
    let s := s.setMail 0 p ch { m with data := v, isFull := true }
    if 8 ≤ ch then { s with secure := s.secure ++ [(Fin.ofNat 2 p, Fin.ofNat 16 ch)] } else s

/-- The device acknowledges an H2D channel; ignored while it is empty (R412, R417). -/
def State.ackH2d (s : State) (p ch : Nat) (code : BitVec 16) : State :=
  let m := s.mail 0 p ch
  if m.isFull then
    let s := s.setMail 0 p ch { m with isFull := false, acked := true, code := code }
    if (s.mboxReg p 0).toNat.testBit ch then s.mboxInt p else s
  else s

/-- Flint's first held message of a port goes out (R415). -/
def State.sendHeld (s : State) (p : Nat) : State :=
  match s.d2hHeld.find? fun (e : Fin 2 × BitVec 32) => e.1.val == p with
  | some e => ({ s with d2hHeld := s.d2hHeld.erase e }).d2hSend p 8 e.2
  | none => s

/-- The host acknowledges a D2H channel; ignored while it is empty (R412, R415). -/
def State.ackD2h (s : State) (p ch : Nat) (code : BitVec 16) : State :=
  let m := s.mail 1 p ch
  if m.isFull then
    let s := s.setMail 1 p ch { m with isFull := false, acked := true, code := code }
    if ch = 8 then s.sendHeld p else s
  else s

/-- H2D_DATA_WRITE (R412, R414). -/
def execH2dDataWrite (port : Fin 2) (ch : Fin 16) (v : BitVec 32) (s : State) : Host.Outcome State Fault Refusal :=
  .next (if s.bar4Serves port then s.h2dSend port ch v else s)

/-- H2D_ACK (R412, R430): through register space, on a non-secure channel. -/
def execH2dAck (port : Fin 2) (ch : Fin 8) (code : BitVec 16) (s : State) : Host.Outcome State Fault Refusal :=
  .next (s.ackH2d port ch code)

/-- D2H_DATA_WRITE (R412, R415): on a full channel the device's write meets a bus error and changes nothing. -/
def execD2hDataWrite (port : Fin 2) (ch : Fin 8) (v : BitVec 32) (s : State) : Host.Outcome State Fault Refusal :=
  .next (if (s.mail 1 port ch).isFull then s else s.d2hSend port ch v)

/-- D2H_ACK (R412, R415). -/
def execD2hAck (port : Fin 2) (ch : Fin 16) (code : BitVec 16) (s : State) : Host.Outcome State Fault Refusal :=
  .next (if s.bar4Serves port then s.ackD2h port ch code else s)

/-! ### The registers of BAR4 and of the `MBX_` block (R430, R431) -/

/-- The channel and the register (0 DATA, 1 STATUS, 2 ACK) of an offset, with its direction (0 H2D, 1 D2H). -/
def mboxAt (o n : Nat) : Option (Nat × Nat × Nat) :=
  let d := o / 0x100
  let ch := o % 0x100 / 16
  let r := o % 16 / 4
  if d < 2 ∧ ch < n ∧ r < 3 then some (d, ch, r) else none

/-- A host's write of a word of BAR4. -/
def State.bar4Word (s : State) (p o : Nat) (v : BitVec 32) : State :=
  match mboxAt o 16 with
  | some (0, ch, 0) => s.h2dSend p ch v
  | some (0, ch, 1) =>
    let m := s.mail 0 p ch
    s.setMail 0 p ch { m with acked := m.acked && !v.toNat.testBit 1, overrun := m.overrun && !v.toNat.testBit 2 }
  | some (1, ch, 2) => s.ackD2h p ch (v.setWidth 16)
  | some _ => s
  | none =>
    if o = 0x200 then s.setMboxReg p 0 v
    else if o = 0x204 then s.setMboxReg p 1 (BitVec.ofNat 32 (v.toNat % 64))
    else if o = 0x208 then s.setMboxReg p 2 v
    else s

/-- A device's write of a word of a port's `MBX_` block: whether it met a bus error (R415).
[log 116: DEDUCED] [log 117: DEDUCED] -/
def State.mboxWord (s : State) (p o : Nat) (v : BitVec 32) : Bool × State :=
  match mboxAt o 8 with
  | some (0, ch, 2) => (false, s.ackH2d p ch (v.setWidth 16))
  | some (1, ch, 0) => if (s.mail 1 p ch).isFull then (true, s) else (false, s.d2hSend p ch v)
  | some (1, ch, 1) =>
    let m := s.mail 1 p ch
    (false, s.setMail 1 p ch { m with acked := m.acked && !v.toNat.testBit 1 })
  | some (0, ch, 1) =>
    let m := s.mail 0 p ch
    (false, s.setMail 0 p ch { m with acked := m.acked && !v.toNat.testBit 1 })
  | _ => (false, s)

/-- A word of a port's `MBX_` block as the device reads it: WO fields read 0, OVERRUN is absent (R430). -/
def State.mboxRead (s : State) (p o : Nat) : Nat :=
  match mboxAt o 8 with
  | some (0, ch, 0) => (s.mail 0 p ch).data.toNat
  | some (d, ch, 1) => bit1 (s.mail d p ch).isFull 0 + bit1 (s.mail d p ch).acked 1
  | some (1, ch, 2) => (s.mail 1 p ch).code.toNat
  | _ => 0

end Sys2Proof.Machine
end

