-- ==== Sys2Proof/Machine/Registers.lean ====
section
/-! DEFINITION. Reads and writes of register space by hosts, engines and commands, under the access codes of R6 and the
rules of each register (R7, R30, R192, R270, R295 to R297, R339, R374, R396, R406 to R410, R430, R451, R474). -/
namespace Sys2Proof.Machine

/-! ### What RO fields show -/

/-- The bits of a stored register that a mask keeps. -/
def State.kept (s : State) (o mask : Nat) : Nat := (s.reg o &&& BitVec.ofNat 64 mask).toNat

/-- TILE_PROC_STATUS (R192). -/
def State.procStatus (s : State) (t : Nat) : Nat :=
  let x := s.tile t
  let ready := fun (b : Bank) => b.phase == .preloaded
  bit1 (x.cur.phase == .issuing) 0 + bit1 x.active 1 + bit1 (ready x.bank0 || ready x.bank1) 2 + s.kept (tileBase t) 0x38

/-- TILE_QDEPTH (R192). -/
def Tile.depths (x : Tile) : Nat :=
  x.f.queue.length + x.b0.queue.length * 2 ^ 9 + x.b1.queue.length * 2 ^ 18 + x.vq.length * 2 ^ 27 + x.dm.length * 2 ^ 36

/-- TILE_PINn of a bank (R192). -/
def Bank.pinWord (b : Bank) : Nat := if b.pinned then b.pinBase + 1024 * b.pinLen + 2 ^ 31 else 0

/-- TILE_VU_STENCIL (R228, R240): the slots that hold a record, and those with HAS_DERIV. -/
def Tile.stencilWord (x : Tile) : Nat :=
  (List.range 8).foldl (fun m n => match tget (fun _ => ([] : List Byte)) x.slots n with
    | [] => m
    | r => m + 2 ^ n + bit1 (bitN (byteAt r 5) 2) (8 + n)) 0

/-- TILE_MU_STATUS of a unit (R142). -/
def State.unitStatus (s : State) (t u : Nat) : Nat :=
  let x := s.tile t
  let m := if u = 0 then x.f else if u = 1 then x.b0 else x.b1
  let held := match m.queue with
    | c :: _ => x.interlocked c
    | [] => false
  bit1 m.run.isSome 0 + bit1 held 1 + s.kept (unitReg t u 0) 0x7FC

/-- DMA_CH_STATUS of a channel (R270). -/
def State.chanStatus (s : State) (ch : Nat) : Nat :=
  let f := (s.chan ch).flight
  bit1 (!f.isEmpty) 0 + bit1 (f.any Desc.isXfer) 12 + s.kept (chanReg ch 0x18) 0xFFE

/-- COL_STATUS of a network die's engine (R370). -/
def State.colStatus (s : State) (nd : Nat) : Nat :=
  (s.jobs.filter fun j => j.nd == nd).length + 128 * s.poolFree nd + s.kept (colReg nd 0) 0x300000

/-- TQ_GENG_STATUS of a compute die (R409). -/
def State.gengStatus (s : State) (d : Nat) : Nat :=
  s.freeNodes d + 2 ^ 18 * s.freePend d + 2 ^ 37 * (s.dieLaunches d).length

/-- TQ_GRAPH of a graph (R409). -/
def State.graphWord (s : State) (g : Nat) : Nat :=
  let cur := match s.current? g with
    | some v => 2 ^ 12 * v.nodes.length + 2 ^ 28 * (v.number % 2 ^ 36)
    | none => 0
  bit1 (s.current? g).isSome 0 + bit1 (s.pending? g).isSome 1 + 4 * ((s.liveVersions g).length % 16) + cur +
    s.kept (graphReg g) 0xFC0

/-- The PF's Pending Bit Array of a partition's port (R396, R406). -/
def State.pbaWord (s : State) (port fn : Nat) : Nat :=
  (List.range 64).foldl (fun m v => if (port, fn, v) ∈ s.msixPend then m + 2 ^ v else m) 0

/-- What a register shows, by the whole-module offset at which it starts; registers of a lost die read 0 (R448). -/
def State.regShow (s : State) (o : Nat) : Nat :=
  let k := o % 0x10000000
  let bank := o / 0x10000000
  if !s.regAlive o then 0
  else if 0x1000000 ≤ k ∧ k < 0x1800000 then
    let t := (k - 0x1000000) / 0x10000
    let r := k % 0x10000
    if r = 0 then s.procStatus t
    else if r = 4 then (s.tile t).cur.pc.toNat
    else if r = 0x20 then (s.tile t).depths
    else if r = 0x28 then (s.tile t).bank0.pinWord
    else if r = 0x2C then (s.tile t).bank1.pinWord
    else if r = 0x1000 then bit1 (s.tile t).vrun.isSome 0 + s.kept o 0x3FE
    else if r = 0x1004 then (s.tile t).stencilWord
    else if r = 0x2000 then bit1 (s.tile t).adder.isSome 1 + s.kept o 1
    else if r = 0x8000 ∨ r = 0x8100 ∨ r = 0x8200 then s.unitStatus t ((r - 0x8000) / 0x100)
    else match chanAt o with
      | some (ch, 0x18) => s.chanStatus ch
      | _ => (s.reg o).toNat
  else if 0x40000 ≤ k ∧ k < 0x50000 then
    if k % 0x800 = 0 then
      let m := (k - 0x40000) / 0x800
      4 * ((List.range 8).map fun i => (s.chan (512 + 8 * m + i)).flight.length).sum + s.kept o 3
    else match chanAt o with
      | some (ch, 0x18) => s.chanStatus ch
      | _ => (s.reg o).toNat
  else if k = 0x80000 ∨ k = 0x80100 then s.colStatus ((k - 0x80000) / 0x100)
  else if k = 0x600100 ∨ k = 0x600120 then s.gengStatus ((k - 0x600100) / 0x20)
  else if 0x610000 ≤ k ∧ k < 0x620000 then s.graphWord ((k - 0x610000) / 0x10)
  else if 0x620000 ≤ k ∧ k < 0x620400 then (tget msixReset s.msix (msixKey (s.portOf bank) 0 ((k - 0x620000) / 16) (k % 16 / 8))).toNat
  else if k = 0x621000 then s.pbaWord (s.portOf bank) 0
  else if k = fabReg 2 0x20 ∨ k = fabReg 3 0x20 then 0
  else (s.reg o).toNat

/-- Where the register that covers an offset starts (R6). -/
def regStart (o : Nat) : Option Nat :=
  match regInfo (o / 4 * 4 % 0x10000000) with
  | some _ => some (o / 4 * 4)
  | none => match regInfo ((o / 4 * 4 - 4) % 0x10000000) with
    | some r => if r.wide && decide (4 ≤ o) then some (o / 4 * 4 - 4) else none
    | none => none

/-- One byte of register space at a whole-module offset: registers, mailboxes and instruction memory; reserved and
unmapped offsets read 0 (R7). -/
def State.byteShow (s : State) (o : Nat) : Byte :=
  if 0x2000000 ≤ o ∧ o < 0x2800000 then s.byte (0xF80000000000 + o)
  else if 0x90000 ≤ o ∧ o < 0x90800 then
    BitVec.ofNat 8 (s.mboxRead ((o - 0x90000) / 0x400) (o % 0x400 / 4 * 4) >>> (8 * (o % 4)))
  else match regStart o with
    | some r => BitVec.ofNat 8 (s.regShow r >>> (8 * (o - r)))
    | none => 0

/-- One byte of register space at a partition's offset. -/
def State.regByte (s : State) (part off : Nat) : Byte :=
  match s.physOff part off with
  | none => 0
  | some o => s.byteShow o

/-- A read of n bytes at an offset clears the RC fields of which it returns a byte: the longest waits of GLB_FAB_WAIT_MAX,
16 bits each (R6, R318). -/
def State.readClears (s : State) (off n : Nat) : State :=
  [0, 1, 2, 3].foldl (fun s d => [0, 1, 2, 3].foldl (fun s c =>
    let o := fabReg d 8 + 2 * c
    if decide (off < o + 2) && decide (o < off + n) && !s.dieLost d then s.putReg (fabReg d 8) (16 * c + 15) (16 * c) 0
    else s) s) s

/-- A read of n bytes of register space (R6). -/
def State.regRead (s : State) (part off n : Nat) : List Byte × State :=
  ((List.range n).map fun i => s.regByte part (off + i), s.readClears off n)

/-! ### Writes of one register -/

/-- A register's fields under R6: RW bits take the value, WC bits that are written 1 clear, others stay. -/
def State.writeFields (s : State) (o : Nat) (i : RegInfo) (v : Word) (mask : Nat) : State :=
  s.setReg o (maskIn (s.reg o) v (i.rw &&& mask) &&& ~~~(v &&& BitVec.ofNat 64 (i.wc &&& mask)))

/-- A value of a register with the masked bits replaced. -/
def State.merged (s : State) (o : Nat) (v : Word) (mask : Nat) : Nat := (maskIn (s.reg o) v mask).toNat

/-- GLB_RESET (R442, R446, R451). -/
def State.writeReset (s : State) (part v : Nat) : State :=
  let s := if bitN v 1 then s.dieGoBy part (bitsN v 3 2) else s
  if bitN v 0 then s.fullBy part else s

/-- TQ_CFG by the kernel path (R379, R407): all fields while the queue is FREE or DESTROYED, VEC in any state. -/
def State.writeQueueCfg (s : State) (part q : Nat) (v : Word) (mask : Nat) : State :=
  let o := queueReg q 0
  let st := s.queueState q
  let new := if st = 0 ∨ st = 3 then maskIn (s.reg o) v (0x1FFFFF &&& mask) else s.reg o
  let fn := field new 13 9
  if st = 3 ∧ fn ≠ 0 ∧ fn ≠ field (s.reg o) 13 9 ∧ 256 ≤ (s.vfQueues part fn).length then
    s.adminDone part (if s.split then q % 2048 else q) true
  else
    let withVec := maskIn new v (0x1FE00000 &&& mask)
    s.setReg o (if field withVec 28 21 < vectors fn then withVec else new)

/-- A queue's register: by the kernel path, or by another path (R380, R407, R410). -/
def State.writeQueueReg (s : State) (part q r : Nat) (kernel : Bool) (v : Word) (mask : Nat) : State :=
  let o := queueReg q r
  let free := s.queueState q == 0 || s.queueState q == 3
  match r with
  | 0x0 => if kernel then s.writeQueueCfg part q v mask else s
  | 0x4 => if kernel && free then s.setReg o (maskIn (s.reg o) v (0xFFFFF &&& mask)) else s
  | 0x8 => if kernel && free then s.setReg o (maskIn (s.reg o) v (0xFFFFFFFFFFFFFFC0 &&& mask)) else s
  | 0x10 => s.writeTail q (s.merged o v (0xFFFF &&& mask) % 65536)
  | 0x40 => if kernel then s.setReg o (maskIn (s.reg o) v (0xFFFFFF &&& mask)) else s
  | _ => match lookupReg queueRegs r with
    | some i => s.writeFields o i v mask
    | none => s

/-- TQ_INT_ROUTE (R409): a vector past the named function's table is ignored. -/
def State.writeRoute (s : State) (o : Nat) (v : Word) (mask : Nat) : State :=
  let new := maskIn (s.reg o) v (0x9F00 &&& mask)
  let withVec := maskIn new v (0xFF &&& mask)
  s.setReg o (if field withVec 7 0 < vectors (field new 12 8) then withVec else new)

/-- Half of an MSI-X table entry: a vector that is unmasked sends the message it holds (R396). -/
def State.writeMsix (s : State) (port fn vec half : Nat) (v : Word) (mask : Nat) : State :=
  if vectors fn ≤ vec then s
  else
    let k := msixKey port fn vec half
    let s := { s with msix := tset msixReset s.msix k (maskIn (tget msixReset s.msix k) v
      (if half = 1 then 0x1FFFFFFFF &&& mask else mask)) }
    if (port, fn, vec) ∈ s.msixPend ∧ s.msixMasked port fn vec = false then
      ({ s with msixPend := s.msixPend.filter (· != (port, fn, vec)) }).emit (.interrupt port fn vec)
    else s

/-- NET_TIMERS (R339): a zero RTO or RETRY_LIMIT is stored as 1. -/
def netTimers (v : Nat) : Nat :=
  max 1 (bitsN v 11 0) + 4096 * max 1 (bitsN v 15 12) + 65536 * bitsN v 27 16

/-- The registers that only the kernel path writes (R296, R327, R407 to R409, R451, R474). -/
def kernelReg (k : Nat) : Bool :=
  k == 0x48 || (decide (0x54000 ≤ k) && decide (k < 0x54054)) || decide (0x3000000 ≤ k) ||
    (decide (0x500000 ≤ k) && decide (k < 0x600000) && k % 16 == 0) || (decide (0x600000 ≤ k) && decide (k < 0x630000)) ||
    (decide (0x1000000 ≤ k) && decide (k < 0x1800000) && (k % 0x10000 == 0x4008 || k % 0x10000 == 0x400C))

/-- A channel's register (R249, R261, R265, R267, R270). -/
def State.writeChanReg (s : State) (ch r : Nat) (kernel : Bool) (v : Word) (mask : Nat) : State :=
  let o := chanReg ch r
  match r with
  | 0x0 => s.writeRingBase ch (maskIn (s.reg o) v mask)
  | 0x8 => s.writeRingCfg ch (s.merged o v mask) kernel
  | 0xC => s.writeProd ch (BitVec.ofNat 16 (s.merged o v mask))
  | 0x14 => if mask % 2 = 1 then s.writeCtrl ch v.toNat else s
  | _ => match lookupReg chanRegs r with
    | some i => s.writeFields o i v mask
    | none => s

/-- A tile's register outside its channels (R160, R192, R474). -/
def State.writeTileReg (s : State) (o : Nat) (v : Word) (mask : Nat) : State :=
  let t := (o - 0x1000000) / 0x10000
  match o % 0x10000 with
  | 0x400C => if (v.toNat &&& mask) % 2 = 1 then s.setTile t { s.tile t with retireReq := true } else s
  | 0x8300 => if mask % 2 = 1 then s.writeBwdMode o v.toNat else s
  | r => match tileInfo r with
    | some i => s.writeFields o i v mask
    | none => s

/-- A register below the tiles and the flow contexts. -/
def State.writeLowReg (s : State) (part o : Nat) (i : RegInfo) (v : Word) (mask : Nat) : State :=
  let k := o % 0x10000000
  let all := s.merged o v mask
  if k = 0x48 then s.writeReset part (v.toNat &&& mask)
  else if k = 0x10004 then s.setReg o (BitVec.ofNat 64 (capOf all))
  else if 0x40000 ≤ k ∧ k < 0x50000 ∧ k % 0x800 = 0x10 then
    if (v.toNat &&& mask) % 2 = 1 then s.restartMover ((k - 0x40000) / 0x800) else s
  else if 0x52000 ≤ k ∧ k < 0x52400 ∧ k % 0x20 = 0 then s.writeMemReg o (maskIn (s.reg o) v (0x3FFFFFF &&& mask)).toNat
  else if 0x60000 ≤ k ∧ k < 0x61000 ∧ k % 0x400 = 0x10 then s.setReg o (BitVec.ofNat 64 (max 1 (all % 65536)))
  else if k = 0x70004 then s.setReg o (BitVec.ofNat 64 (netTimers all))
  else if 0x500000 ≤ k ∧ k < 0x600000 then
    if k % 16 = 8 then s.ctrAdd ((k - 0x500000) / 16) (v &&& BitVec.ofNat 64 mask)
    else s.ctrSet ((k - 0x500000) / 16) (maskIn (s.reg o) v mask)
  else if k = 0x600000 then s.adminWrite part (bitsN (v.toNat &&& mask) 11 0) (bitsN (v.toNat &&& mask) 13 12)
  else if k = 0x600008 then s.writeBar2Base o (maskIn (s.reg o) v mask).toNat
  else if 0x601000 ≤ k ∧ k < 0x602000 then s.writeRoute o v mask
  else if 0x620000 ≤ k ∧ k < 0x620400 then s.writeMsix (s.portOf part) 0 ((k - 0x620000) / 16) (k % 16 / 8) v mask
  else s.writeFields o i v mask

/-- A write of the masked bits of the register that starts at a whole-module offset, by the kernel path of a partition
or by another path; a register of a lost die ignores it (R448). -/
def State.writeReg (s : State) (part o : Nat) (kernel : Bool) (v : Word) (mask : Nat) : State :=
  let k := o % 0x10000000
  match regInfo k with
  | none => s
  | some i =>
    if (!s.regAlive o && k / 0x100000 != 5) || (!kernel && kernelReg k) then s
    else if 0x3000000 ≤ k then s.writeFlow ((k - 0x3000000) / 64) (k % 64 / 8) v mask
    else if 0x400000 ≤ k ∧ k < 0x500000 then
      s.writeQueueReg part ((k - 0x400000) / 0x100) (k % 0x100) kernel v mask
    else match chanAt k with
      | some (ch, r) => s.writeChanReg ch r kernel v mask
      | none => if 0x1000000 ≤ k then s.writeTileReg o v mask else s.writeLowReg part o i v mask

/-! ### Writes of bytes -/

/-- The registers that start in or before n bytes at an offset and that the bytes touch. -/
def regsIn (o n : Nat) : List Nat :=
  (((List.range ((o % 4 + n + 3) / 4)).map fun i => regStart (o / 4 * 4 + 4 * i)).filterMap id).eraseDups

/-- The value and the mask that bytes at an offset give the register that starts at r. -/
def regSlice (o : Nat) (bs : List Byte) (r : Nat) : Word × Nat :=
  (List.range 8).foldl (fun (a : Word × Nat) i =>
    if o ≤ r + i ∧ r + i < o + bs.length then
      (a.1 ||| (((bs.getD (r + i - o) 0).setWidth 64) <<< (8 * i)), a.2 + 255 * 2 ^ (8 * i))
    else a) (0, 0)

/-- Bytes written to mailboxes, word by word; a word's other bytes count as 0. -/
def State.mboxBytes (s : State) (o : Nat) (bs : List Byte) : Bool × State :=
  (List.range ((o % 4 + bs.length + 3) / 4)).foldl (fun (a : Bool × State) i =>
    let w := o / 4 * 4 + 4 * i
    let x := (regSlice o bs w).1.setWidth 32
    let r := a.2.mboxWord ((w - 0x90000) / 0x400) (w % 0x400) x
    (a.1 || r.1, r.2)) (false, s)

/-- A write of bytes to register space outside the instruction-memory windows, at a partition's offset: whether it met a
bus error. -/
def State.regWrite (s : State) (part off : Nat) (kernel : Bool) (bs : List Byte) : Bool × State :=
  match s.physOff part off with
  | none => (false, s)
  | some o =>
    if 0x90000 ≤ o ∧ o < 0x90800 then s.mboxBytes o bs
    else (false, (regsIn o bs.length).foldl (fun s r =>
      let x := regSlice o bs r
      s.writeReg part r kernel x.1 x.2) s)

/-! ### What hosts read (R30, R373, R410, R411, R424, R430, R431, R440) -/

/-- A word of a port's BAR4 as its host reads it: WO fields and the device's ACKED read 0 (R430, R431). -/
def State.bar4Read (s : State) (p o : Nat) : Nat :=
  match mboxAt o 16 with
  | some (0, ch, 0) => (s.mail 0 p ch).data.toNat
  | some (0, ch, 1) =>
    bit1 (s.mail 0 p ch).isFull 0 + bit1 (s.mail 0 p ch).acked 1 + bit1 (s.mail 0 p ch).overrun 2
  | some (0, ch, 2) => (s.mail 0 p ch).code.toNat
  | some (1, ch, 0) => (s.mail 1 p ch).data.toNat
  | some (1, ch, 1) => bit1 (s.mail 1 p ch).isFull 0
  | some _ => 0
  | none =>
    if o = 0x200 then (s.mboxReg p 0).toNat
    else if o = 0x204 then (s.mboxReg p 1).toNat
    else if o = 0x208 then (s.mboxReg p 2).toNat
    else 0

/-- A byte of a VF's BAR0 (R410): the page of its s-th queue, the counter window, its MSI-X table and Pending Bit Array; every
other offset reads 0. -/
def State.vfByte (s : State) (port part fn off : Nat) : Byte :=
  if off < 0x100000 then
    match (s.vfQueues part fn)[off / 0x1000]? with
    | some q => if off % 0x1000 < 0x100 then s.byteShow (queueReg q (off % 0x1000)) else 0
    | none => 0
  else if off < 0x200000 then
    match s.physCtr part ((off - 0x100000) / 16) with
    | some i => if off % 16 < 8 then s.byteShow (ctrReg i + off % 16) else 0
    | none => 0
  else if off < 0x200080 then
    BitVec.ofNat 8 ((tget msixReset s.msix (msixKey port fn ((off - 0x200000) / 16) (off % 16 / 8))).toNat >>> (8 * (off % 8)))
  else if 0x201000 ≤ off ∧ off < 0x201008 then BitVec.ofNat 8 (s.pbaWord port fn >>> (8 * (off % 8)))
  else 0

/-- Whether the PF of a port without the kernel path reads an offset of BAR0: the non-owning port of Whole mode (R30), a
halted module (R440), and recovery mode (R424). -/
def State.pfShows (s : State) (off : Nat) : Bool :=
  match s.mode with
  | .running => decide (off < 0x30000)
  | .halted => decide (off < 0x40000) || (decide (0x50000 ≤ off) && decide (off < 0x52000))
  | .recovery => decide (off < 0x10000) || (decide (0x400000 ≤ off) && decide (off < 0x400100))
  | .off => false
  | .tripped => false

/-- A byte that a host reads at an offset of a BAR. Mailboxes that the port cannot reach, and offsets that it is not
shown, read 0; the Completer Abort of R449 leaves no data. -/
def State.hostByte (s : State) (path : Path) (off : Nat) : Byte :=
  match path with
  | .bar4 p => if s.bar4Serves p then BitVec.ofNat 8 (s.bar4Read p (off / 4 * 4) >>> (8 * (off % 4))) else 0
  | .bar0 p fn => match s.kernelPath path with
    | some part => s.regByte part off
    | none => match s.vfPath path with
      | some (part, f) => s.vfByte p part f off
      | none => if fn.val = 0 && s.portServes p && s.pfShows off then s.byteShow off else 0

/-- FAB_WAIT_MAX_READ (R6, R318): a host's read of GLB_FAB_WAIT_MAX returns the longest waits and clears them. Both
ports' PFs read the `GLB_` block (R30, R440). What a read of a lost die returns is a free value.
[log 98: DESIGN CHOICE] -/
def execFabWaitMaxRead (path : Path) (die : Die) (s : State) : Host.Outcome State Fault Refusal :=
  let o := fabReg (dieNum die) 8
  .next (match path with
    | .bar4 _ => s
    | .bar0 p fn =>
      if fn.val ≠ 0 ∨ s.portServes p = false ∨ s.mode = .off ∨ s.mode = .tripped then s
      else if s.dieLost (dieNum die) then
        let (f, s) := s.draw
        s.emit (.pcieData p (natLe 8 f.toNat))
      else (s.emit (.pcieData p ((List.range 8).map fun i => s.hostByte path (o + i)))).readClears o 8)

/-! ### Writes by hosts (R30, R374, R410, R424, R430, R440) -/

/-- A VF's write of bytes at an offset of its BAR0 (R410): a queue page, the counter window or its MSI-X table. -/
def State.vfWrite (s : State) (port part fn off : Nat) (bs : List Byte) : State :=
  if off < 0x100000 then
    match (s.vfQueues part fn)[off / 0x1000]? with
    | none => s
    | some q =>
      if off % 0x1000 < 0x100 ∧ s.dieLost (queueDie q) = false then
        (regsIn (queueReg q (off % 0x1000)) bs.length).foldl (fun s r =>
          let x := regSlice (queueReg q (off % 0x1000)) bs r
          if (r - 0x400000) / 0x100 = q then s.writeQueueReg part q (r % 0x100) false x.1 x.2 else s) s
      else s
  else if off < 0x200000 then
    match s.physCtr part ((off - 0x100000) / 16) with
    | some i => (regsIn (ctrReg i + off % 16) bs.length).foldl (fun s r =>
        let x := regSlice (ctrReg i + off % 16) bs r
        s.writeReg part r false x.1 x.2) s
    | none => s
  else if off < 0x200080 then
    let o := off / 8 * 8
    let x := regSlice off bs o
    s.writeMsix port fn ((o - 0x200000) / 16) (o % 16 / 8) x.1 x.2
  else s

/-- A write through the PF of a port in recovery mode: queue 0 and the administration register (R424). -/
def State.recoveryWrite (s : State) (off : Nat) (bs : List Byte) : State :=
  if (0x400000 ≤ off ∧ off < 0x400100) ∨ (0x600000 ≤ off ∧ off < 0x600004) then (s.regWrite 0 off true bs).2 else s

/-- A host's write of 4 or 8 bytes at an offset of a BAR. [log 116: DEDUCED] -/
def State.hostWrite (s : State) (path : Path) (off : Nat) (bs : List Byte) : State :=
  match path with
  | .bar4 p =>
    if s.bar4Serves p then
      (List.range ((off % 4 + bs.length + 3) / 4)).foldl (fun s i =>
        let w := off / 4 * 4 + 4 * i
        s.bar4Word p w ((regSlice off bs w).1.setWidth 32)) s
    else s
  | .bar0 p fn => match s.kernelPath path with
    | some part =>
      if 0x2000000 ≤ off ∧ off < 0x2800000 then
        s.kernelWrite path off fun o s => s.imemHost ((o - 0x2000000) / 0x10000) (o % 0x10000) bs
      else if s.regReach (2 + p) part off ≠ .ok then s
      else (s.regWrite part off true bs).2
    | none => match s.vfPath path with
      | some (part, f) => s.vfWrite p part f off bs
      | none =>
        if fn.val ≠ 0 ∨ s.portServes p = false then s
        else if s.resetPath path ∧ off / 4 = 0x12 then
          s.writeReset (s.portPart p) ((regSlice off bs 0x48).1.toNat)
        else if s.mode = .recovery then s.recoveryWrite off bs
        else s

/-- REGISTER_WRITE (R6, R7). -/
def execRegisterWrite (path : Path) (off : Nat) (wide : Bool) (v : BitVec 64) (s : State) :
    Host.Outcome State Fault Refusal :=
  .next (s.hostWrite path off (natLe (if wide then 8 else 4) v.toNat))

/-- An access of a source to register space leaves as packets. -/
def State.sendReg (s : State) (x : Src) (part off n : Nat) (read : Bool) : State :=
  match s.physOff part off with
  | some o => s.send x (0xF80000000000 + o % 0x10000000) n read false
  | none => s

/-- REG_WRITE (R392): a write of register space as the kernel path; a bus error ends the command with BUS (R415), a
register on a lost die with DIE_LOST (R447). -/
def execRegWrite (cid : Nat) (s : State) : Host.Outcome State Fault Refusal :=
  .next (match s.passed cid 0xC1 with
    | none => s
    | some c =>
      let s := s.taken c
      let off := bytesN c.bytes 31 28 % 2 ^ 26
      let bs := (c.bytes.drop 32).take (if bitN (byteAt c.bytes 24) 0 then 8 else 4)
      match s.regReach (engineDie c.engine) c.part off with
      | .ok =>
        let (bad, s) := (s.sendReg (engineSrc c.engine) c.part off bs.length false).regWrite c.part off true bs
        s.finish cid (if bad then .bus else .ok)
      | st => s.finish cid st)

end Sys2Proof.Machine
end

