-- ==== Sys2Proof/Machine/Move.lean ====
section
/-! DEFINITION. What a channel reads and writes at a local address: memory, instruction memory and register space
(R25, R183, R257, R374, R415, R447). -/
namespace Sys2Proof.Machine

/-- An offset of register space lies in an instruction-memory window (R183). -/
def inImem (off : Nat) : Bool := decide (0x2000000 ≤ off) && decide (off < 0x2800000)

/-- A source's read of n bytes at a whole-module address (register space by its partition's offset). `elem` tells an element of
a gather or scatter (R277). -/
def State.moveRead (s : State) (x : Src) (part : Nat) (elem : Bool) (a n : Nat) : Status × List Byte × State :=
  match s.region a with
  | .regs off => match s.regReach x.die part off with
    | .ok => let (bs, s) := (s.sendReg x part off n true).regRead part off n
      (.ok, bs, s)
    | st => (st, [], s)
  | _ =>
    let (st, s) := s.memReadAs x elem a n
    (st, s.bytes a n, s)

/-- A source's write of bytes at such an address. -/
def State.moveWrite (s : State) (x : Src) (part : Nat) (elem : Bool) (a : Nat) (bs : List Byte) : Status × State :=
  match s.region a with
  | .regs off => match s.regReach x.die part off with
    | .ok =>
      let s := s.sendReg x part off bs.length false
      if inImem off then
        match s.physOff part off with
        | some o => (.ok, s.imemWrite (0xF80000000000 + o) bs)
        | none => (.ok, s)
      else
        let (bad, s) := s.regWrite part off false bs
        (if bad then .bus else .ok, s)
    | st => (st, s)
  | _ => s.memWriteAs x elem a bs

/-! ### Pins (R185) -/

/-- The parts of n bytes of the instruction-memory windows from offset o on: tile, offset in its window, bytes. -/
def imemParts (o n : Nat) : List (Nat × Nat × Nat) :=
  (List.range 128).filterMap fun t =>
    let lo := max o (0x10000 * t)
    let hi := min (o + n) (0x10000 * (t + 1))
    if lo < hi then some (t, lo - 0x10000 * t, hi - lo) else none

/-- The banks whose pins some bytes of the windows meet. -/
def State.pinsMet (s : State) (o n : Nat) : List (Nat × Bool) :=
  ((imemParts o n).map fun (x : Nat × Nat × Nat) => [false, true].filterMap fun b =>
    if ((s.tile x.1).bank b).pinMeets x.2.1 x.2.2 then some (x.1, b) else none).flatten

/-- The offset in the windows of a whole-module address of register space that a partition names. -/
def State.imemOff (s : State) (part p : Nat) : Option Nat :=
  match s.region p with
  | .regs off => if inImem off then (s.physOff part off).map fun o => o - 0x2000000 else none
  | _ => none

/-- The tile whose pinned instruction memory a write of n bytes meets, and must wait for (R185, fifth row). -/
def State.pinWaits (s : State) (part p n : Nat) : Option Nat :=
  match s.imemOff part p with
  | some o => (s.pinsMet o n).head?.map fun x => x.1
  | none => none

/-! ### What a channel's bursts write (R256, R313) -/

/-- Bytes written by a mover are counted (R271). -/
def State.moverBytes (s : State) (ch n : Nat) : State :=
  if ch < 512 then s else s.count64 (moverReg (moverOf ch) 0x18) n

/-- Bytes of a burst land at a whole-module address. -/
def State.landWhole (s : State) (b : BurstId) (elem : Bool) (p : Nat) (bs : List Byte) : Status × State :=
  let (st, s) := s.moveWrite (chanSrc b.ch) (s.chanPart b.ch) elem p bs
  (st, if st = .ok then s.moverBytes b.ch bs.length else s)

/-- A packet that meets pinned instruction memory is answered with a retry by the tile, which counts it on its die, and is to
be sent again (R313, R318). -/
def State.turnBack (s : State) (b : BurstId) (t : Nat) (a : TileAdd) : State :=
  let c := s.chan b.ch
  (s.setChan b.ch { c with retry := c.retry ++ [a] }).count (fabReg (tileDie t) 0x20) 1

/-- One packet of a burst's write lands or is turned back; a packet turned back holds its burst open. -/
def State.landPacket (s : State) (b : BurstId) (elem : Bool) (p : Nat) (bs : List Byte) : Status × State :=
  match s.pinWaits (s.chanPart b.ch) p bs.length with
  | some t => (.ok, (s.updBurst b fun d => { d with openB := d.openB + 1 }).turnBack b t
      ⟨writeCells bs 0 [], ⟨p, p, bs.length, 0⟩, b⟩)
  | none => s.landWhole b elem p bs

/-- The bytes of a burst reach a local address (R256), in packets where they meet a pin that they must wait for (R298, R313);
`settled` tells that R185 lets them proceed. [log 54: DEDUCED] -/
def State.landBytes (s : State) (b : BurstId) (settled elem : Bool) (p : Nat) (bs : List Byte) : Status × State :=
  if settled || (s.pinWaits (s.chanPart b.ch) p bs.length).isNone then s.landWhole b elem p bs
  else (pieces (bs.length / 256 + 2) p bs.length).foldl (fun (st, s) (x : Nat × Nat) =>
    let (e, s) := s.landPacket b elem x.1 ((bs.drop (x.1 - p)).take x.2)
    (st.merge e, s)) (.ok, s)

end Sys2Proof.Machine
end

