-- ==== Sys2Proof/Machine/Transport.lean ====
section
/-! DEFINITION. The transport at its two ends: data packets at the target, answers and acknowledgements at the issuer,
retransmission (R329 to R336). -/
namespace Sys2Proof.Machine

/-! ### The receive window (R332, R334) -/

/-- Where a PSN stands: a duplicate behind the window, a place in the window, or past it. -/
inductive PsnPlace where
  | behind
  | inside (off : Nat)
  | past
  deriving DecidableEq, Repr

/-- The place of a PSN in a flow's receive window; a marked PSN has taken effect. -/
def State.psnPlace (s : State) (i : Nat) (psn : BitVec 32) : PsnPlace :=
  let off := (psn - s.rxEpsn i).toNat
  if 2 ^ 31 ≤ off then .behind
  else if 256 ≤ off then .past
  else if (s.flow i).marks.contains off then .behind
  else .inside off

/-- RX_EPSN and the marks once RX_EPSN has passed every mark at its front. -/
def advanceMarks : Nat → BitVec 32 → List Nat → BitVec 32 × List Nat
  | 0, e, m => (e, m)
  | n + 1, e, m => if m.contains 0 then advanceMarks n (e + 1) ((m.filter (· != 0)).map (· - 1)) else (e, m)

/-- A packet has taken effect: its PSN is marked and RX_EPSN advances; an ACK is owed, at once when the packet came out
of order (R334). -/
def State.acceptPsn (s : State) (i off : Nat) : State :=
  let f := s.flow i
  let (e, m) := advanceMarks 257 (s.rxEpsn i) (off :: f.marks)
  (s.setFlow i { f with marks := m, owed := f.owed + 1, ackNow := f.ackNow || off != 0 }).putReg (flowReg i 6) 31 0 e.toNat

/-- A packet that takes no effect makes the receiver acknowledge again (R334). -/
def State.ackAgain (s : State) (i : Nat) : State := s.setFlow i { s.flow i with ackNow := true }

/-- SACK (R334): bit j tells of PSN RX_EPSN + 1 + j. -/
def sackWord (marks : List Nat) : BitVec 32 :=
  BitVec.ofNat 32 ((List.range 32).foldl (fun m j => if marks.contains (j + 1) then m + 2 ^ j else m) 0)

/-! ### Answers (R325, R331, R334) -/

/-- A packet of a flow that answers: type, status, reason and REF, with CUM_PSN and SACK in an ACK or a NACK. -/
def State.answer (s : State) (i ptype : Nat) (st : Status) (reason : Nat) (ref : BitVec 32) (payload : List Byte) : Packet :=
  let p := s.packet i ptype payload
  let acks := ptype == 7 || ptype == 8
  { p with status := st.code, reason := reason, ref := ref, cumPsn := if acks then s.rxEpsn i else 0
           sack := if acks then sackWord (s.flow i).marks else 0 }

/-- An answer leaves on its flow's link; none where the link is down or has no room (R322). It
waits for no slot of the network duty. [log 77: DEDUCED] [log 165: DEDUCED] -/
def State.respond (s : State) (i : Nat) (p : Packet) : Option State :=
  if s.flowUp i && s.flowRoom i p then some (s.transmitFlow i p) else none

/-- A NACK with REASON = ERR for a packet that is next in order: it takes its place in the PSN order (R331, R332).
[log 66: DEDUCED] -/
def State.nackErr (s : State) (i : Nat) (psn : BitVec 32) (st : Status) : Option State :=
  (s.acceptPsn i 0).respond i ((s.acceptPsn i 0).answer i 8 st 2 psn [])

/-! ### Arrivals (R329, R448, R450) -/

/-- Whether an arrival may be handled before those that came earlier: the answers of one flow are taken in the order of
their arrival, so that no ACK overtakes the NACK that left before it (R321, R331). [log 139: DEDUCED] -/
def State.arrivalTurn (s : State) (x : Nat × Arrival) : Bool :=
  ptypeClass x.2.pkt.ptype != .rsp ||
    (s.arrived.find? fun (y : Nat × Arrival) =>
      y.1 == x.1 && ptypeClass y.2.pkt.ptype == .rsp && y.2.pkt.dstFlow == x.2.pkt.dstFlow) == some x

/-- The oldest packet that stands at its final hop at a network die and that a test picks. [log 9: DESIGN CHOICE]
[log 139: DEDUCED] -/
def State.nextArrival (s : State) (nd : Nat) (pick : Packet → Bool) : Option (Nat × Arrival) :=
  s.arrived.find? fun (x : Nat × Arrival) => x.1 == nd && pick x.2.pkt && s.arrivalTurn x

/-- An arrival leaves its receive buffer. -/
def State.consume (s : State) (x : Nat × Arrival) : State :=
  ({ s with arrived := s.arrived.erase x }).freeArrival x.2

/-- The context that takes a packet: open or draining, and its peer the sender (R329). In the contained fault state a
context in ERROR still tells who is answered (R450). -/
def State.flowFor (s : State) (nd : Nat) (p : Packet) : Option Nat :=
  let i := s.localFlow nd p.dstFlow
  if i < 262144 ∧ s.pathLost (2 + nd) (flowDie i) = false ∧ field (s.reg (flowReg i 0)) 34 17 = p.srcFlow ∧
      (s.flowState i = 1 ∨ s.flowState i = 2 ∨ (s.contained = true ∧ s.flowState i = 3)) then some i
  else none

/-- The oldest arrival of a kind at a network die is handled: discarded where no context takes it, answered DIE_LOST in
the contained fault state, else passed to `act`, which answers none while its answer has no room on the link.
[log 77: DEDUCED] [log 78: DEDUCED] -/
def State.handle (s : State) (nd : Nat) (pick : Packet → Bool) (act : Nat → Packet → State → Option State) : State :=
  match s.nextArrival nd pick with
  | none => s
  | some x =>
    let out := s.consume x
    match s.flowFor nd x.2.pkt with
    | none => out.count (netDieReg nd 0) 1
    | some i =>
      if s.flowState i = 3 then
        match out.respond i (out.answer i 8 .dieLost 2 x.2.pkt.psn []) with
        | some s' => s'
        | none => out
      else match act i x.2.pkt out with
        | some s' => s'
        | none => s

/-! ### The target window (R327, R331) -/

/-- The source of what arrives on a flow (R286). -/
def flowSrc (i : Nat) : Src := vilvinSrc (flowDie i - 2)

/-- The partition of a flow's die. -/
def State.flowPart (s : State) (i : Nat) : Nat := if s.split then i / 131072 else 0

/-- The whole-module address of n bytes at an offset of a flow's target window; none outside it. [log 73: DEDUCED] -/
def State.window (s : State) (i off n : Nat) : Option Nat :=
  let w := s.reg (flowReg i 2)
  let lg := field w 57 52
  if 12 ≤ lg ∧ lg ≤ 33 ∧ off + n ≤ 2 ^ lg then s.memAt (s.flowPart i) (field w 51 0 + off) n else none

/-- A packet that must be next in order (R332): early ones are discarded, duplicates acknowledged again.
[log 66: DEDUCED] -/
def State.inOrder (s : State) (i : Nat) (p : Packet) (act : State → Option State) : Option State :=
  match s.psnPlace i p.psn with
  | .inside 0 => act s
  | .inside _ => some (s.ackAgain i)
  | .behind => some (s.ackAgain i)
  | .past => some s

/-- WRITE at its target (R330 to R334). -/
def State.writeAt (i : Nat) (p : Packet) (s : State) : Option State :=
  match s.psnPlace i p.psn with
  | .behind => some (s.ackAgain i)
  | .past => some s
  | .inside off =>
    let (st, s') := if !s.flowPerm i 0 then (.bounds, s)
      else match s.window i p.raddr p.payload.length with
        | some a => s.memWrite (flowSrc i) a p.payload
        | none => (.bounds, s)
    if st = .ok then some (s'.acceptPsn i off)
    else if off = 0 then s'.nackErr i p.psn st
    else some (s.ackAgain i)

/-- WRITE (R330). -/
def execWrite (nd : Fin 2) (s : State) : Host.Outcome State Fault Refusal :=
  .next (s.handle nd (fun p => p.ptype == 0) State.writeAt)

/-- The NACK of a packet that was refused before and comes again. [log 139: DEDUCED] -/
def State.nackAgain (s : State) (i : Nat) (psn : BitVec 32) (st : Status) : Option State :=
  s.respond i (s.answer i 8 st 2 psn [])

/-- READ at its target (R330 to R332): executed when it is next in order, and again when it is a duplicate. -/
def State.readAt (i : Nat) (p : Packet) (s : State) : Option State :=
  let run := fun (s : State) (fresh : Bool) =>
    let refuse := if fresh then s.nackErr i p.psn .bounds else s.nackAgain i p.psn .bounds
    if !s.flowPerm i 1 then refuse
    else match s.window i p.raddr p.len with
      | none => refuse
      | some a =>
        let (st, s) := s.memRead (flowSrc i) a p.len
        let s := if fresh then s.acceptPsn i 0 else s
        s.respond i (s.answer i 2 st 0 p.psn (if st = .ok then s.bytes a p.len else []))
  match s.psnPlace i p.psn with
  | .inside 0 => run s true
  | .inside _ => some (s.ackAgain i)
  | .behind => run s false
  | .past => some s

/-- READ (R330). -/
def execRead (nd : Fin 2) (s : State) : Host.Outcome State Fault Refusal :=
  .next (s.handle nd (fun p => p.ptype == 1) State.readAt)

/-- Elements added sector by sector (R283, R331): the first status that is not OK ends it. -/
def State.addSectors (s : State) (x : Src) (afmt : Nat) : Nat → Nat → List Byte → Status × State
  | 0, _, _ => (.ok, s)
  | n + 1, a, bs =>
    if bs = [] then (.ok, s)
    else
      let r := s.reach x.die a
      if r != .ok then (r, s)
      else
        let k := sectorPart a bs
        let (bad, s) := ((s.send x a k false true).holdsEnd a k).addSector afmt a (bs.take k)
        if bad then (.memUe, s) else s.addSectors x afmt n (a + k) (bs.drop k)

/-- Whether an ATOMIC is one R330 allows: whole elements in near memory, one of them with FETCH. [log 76: DEDUCED] -/
def State.atomicOk (s : State) (p : Packet) (a : Nat) : Bool :=
  let n := p.payload.length
  let near := fun (r : Region) => match r with
    | .near _ => true
    | _ => false
  near (s.region a) && near (s.region (a + n - 1)) && n % afmtSize p.afmt == 0 && (!p.fetch || n == afmtSize p.afmt)

/-- The status with which an ATOMIC is refused (R331); OK where it is not. -/
def State.atomicStatus (s : State) (i : Nat) (p : Packet) : Status :=
  if !s.flowPerm i 2 then .bounds
  else match s.window i p.raddr p.payload.length with
    | none => .bounds
    | some a => if s.atomicOk p a then (s.addSectors (flowSrc i) p.afmt 129 a p.payload).1 else .bounds

/-- A duplicate ATOMIC with FETCH (R332): answered from the value kept, or refused as it was before.
[log 139: DEDUCED] -/
def State.fetchAgain (s : State) (i : Nat) (p : Packet) : Option State :=
  match (s.flow i).kept.filter fun k => k.1 == p.psn with
  | some (psn, bs) => s.respond i (s.answer i 4 .ok 0 psn bs)
  | none => match s.atomicStatus i p with
    | .ok => some (s.ackAgain i)
    | st => s.nackAgain i p.psn st

/-- ATOMIC at its target (R330 to R332): next in order only; a duplicate with FETCH is answered from the value kept. -/
def State.atomicAt (i : Nat) (p : Packet) (s : State) : Option State :=
  match s.psnPlace i p.psn with
  | .past => some s
  | .behind => if p.fetch then s.fetchAgain i p else some (s.ackAgain i)
  | .inside 0 =>
    if !s.flowPerm i 2 then s.nackErr i p.psn .bounds
    else match s.window i p.raddr p.payload.length with
      | none => s.nackErr i p.psn .bounds
      | some a =>
        if !s.atomicOk p a then s.nackErr i p.psn .bounds
        else
          let prior := s.bytes a p.payload.length
          let (st, s) := s.addSectors (flowSrc i) p.afmt 129 a p.payload
          if st != .ok then s.nackErr i p.psn st
          else
            let s := s.acceptPsn i 0
            if p.fetch then
              (s.setFlow i { s.flow i with kept := some (p.psn, prior) }).respond i (s.answer i 4 .ok 0 p.psn prior)
            else some s
  | .inside _ => some (s.ackAgain i)

/-- ATOMIC (R330). -/
def execAtomic (nd : Fin 2) (s : State) : Host.Outcome State Fault Refusal :=
  .next (s.handle nd (fun p => p.ptype == 3) State.atomicAt)

/-- SEND at its target (R330, R335, R336): the next SEND-ring entry is filled, or RNR answered where none is posted.
[log 72: DEDUCED] -/
def State.sendAt (i : Nat) (p : Packet) (s : State) : Option State :=
  s.inOrder i p fun s =>
    if !s.flowPerm i 3 then s.nackErr i p.psn .bounds
    else
      let w := s.reg (flowReg i 3)
      let post := s.reg (flowReg i 4)
      let lg := field w 55 52
      let cons := field post 31 16
      if lg = 0 ∨ 12 < lg ∨ field post 15 0 = cons then s.respond i (s.answer i 8 .ok 1 p.psn [])
      else match s.memAt (s.flowPart i) (field w 51 0 + 4160 * (cons % 2 ^ lg)) 4160 with
        | none => s.nackErr i p.psn .bounds
        | some a =>
          let (st, s) := s.memWrite (flowSrc i) (a + 64) p.payload
          let head := p.payload.length + p.srcFlow * 2 ^ 14 + 2 ^ 63
          let (st, s) := if st = .ok then s.memWrite (flowSrc i) a (natLe 8 head) else (st, s)
          if st != .ok then s.nackErr i p.psn st
          else some ((s.putReg (flowReg i 4) 31 16 (cons + 1)).acceptPsn i 0)

/-- SEND (R330). [log 72: DEDUCED] -/
def execSend (nd : Fin 2) (s : State) : Host.Outcome State Fault Refusal :=
  .next (s.handle nd (fun p => p.ptype == 5) State.sendAt)

/-! ### The issuer's side (R330, R331, R334, R335) -/

/-- A receive-pool slot of a job is freed (R367). -/
def State.slotFreed (s : State) (nd : Nat) (tag step : BitVec 16) : State :=
  match s.job? nd tag step with
  | some j => s.setJob { j with freed := j.freed + 1 }
  | none => s

/-- A stored packet leaves the store. [log 65: DEDUCED] -/
def State.unstore (s : State) (i : Nat) (x : Stored) : State :=
  let f := s.flow i
  let f := { f with store := f.store.filter (· != x), fetchBusy := f.fetchBusy && !x.pkt.fetch }
  ((s.setFlow i f).setUnacked i f.store.length).storeSub (flowDie i) (storeBytes x.pkt)

/-- Whether a packet is answered by a response rather than by an ACK (R330). [log 65: DEDUCED] -/
def awaitsResponse (p : Packet) : Bool := p.ptype == 1 || (p.ptype == 3 && p.fetch)

/-- An acknowledged packet leaves the store, and what waited for it goes on. -/
def State.acked (s : State) (i : Nat) (x : Stored) : State :=
  let s := s.unstore i x
  match x.owner with
  | .cmd cid => s.finish cid .ok
  | .ring nd tag step => s.slotFreed nd tag step
  | .chan _ => s
  | .none => s

/-- CUM_PSN has passed WRITEs of a flow: barriers hear it (R334). -/
def State.cumPassed (s : State) (i : Nat) (cum : BitVec 32) : State :=
  let past := fun (p : Nat × BitVec 32) => p.1 == i && decide (2 ^ 31 ≤ (p.2 - cum).toNat)
  (s.chans.filter fun (e : Nat × Chan) => e.2.oldPsns.any past || e.2.flight.any fun d => d.psns.any past).foldl
    (fun s (e : Nat × Chan) => s.setChan e.1 { e.2 with
      oldPsns := e.2.oldPsns.filter fun p => !past p
      flight := e.2.flight.map fun d => { d with psns := d.psns.filter fun p => !past p } }) s

/-- Whether an acknowledgement covers a PSN. -/
def covers (cum sack psn : BitVec 32) : Bool :=
  let d := (psn - cum).toNat
  decide (2 ^ 31 ≤ d) || (decide (1 ≤ d) && decide (d ≤ 32) && sack.toNat.testBit (d - 1))

/-- What an ACK or a NACK acknowledges (R334, R335): covered packets leave the store, the timer starts anew when CUM_PSN
advances, and packets before a later marked one are retransmitted once. -/
def State.ackFields (s : State) (i : Nat) (cum sack : BitVec 32) : State :=
  let f := s.flow i
  if (s.txPsn i - f.cumSeen).toNat < (cum - f.cumSeen).toNat then s
  else
    let done := f.store.filter fun x => covers cum sack x.pkt.psn && !awaitsResponse x.pkt
    let s := done.foldl (fun s x => s.acked i x) s
    let s := s.cumPassed i cum
    let f := s.flow i
    let s := if cum = f.cumSeen then s else s.setFlow i { f with cumSeen := cum, rto := 0, tries := 0 }
    let f := s.flow i
    let late := fun (x : Stored) => !x.fast && !x.rnr && !covers cum sack x.pkt.psn &&
      (List.range 32).any fun j => sack.toNat.testBit j && decide ((x.pkt.psn - cum).toNat ≤ j)
    let again := f.store.filter late
    let s := s.setFlow i { f with store := f.store.map fun x => if late x then { x with fast := true } else x }
    again.foldl (fun s x => s.resend i { x with fast := true }) s

/-- The stored request that an answer refers to. -/
def State.storedFor (s : State) (i : Nat) (ref : BitVec 32) (pick : Packet → Bool) : Option Stored :=
  (s.flow i).store.find? fun x => x.pkt.psn == ref && pick x.pkt

/-- An answer is progress of its flow: the timer starts anew. [log 71: DEDUCED] -/
def State.progress (s : State) (i : Nat) : State := s.setFlow i { s.flow i with rto := 0, tries := 0 }

/-- Data for a burst lands at a whole-module address, and answers the burst. -/
def State.dataLands (s : State) (b : BurstId) (dst : Nat) (bs : List Byte) : State :=
  let settled := match s.burstDesc b with
    | some d => d.settled
    | none => false
  let (st, s) := s.landBytes b settled false dst bs
  s.burstAnswered { b with addr := s.relAddr dst } st true

/-- READ_RSP at the issuer (R330, R331): the data lands at the burst's destination; an error ends the descriptor. -/
def State.readRspAt (i : Nat) (p : Packet) (s : State) : Option State :=
  match s.storedFor i p.ref fun q => q.ptype == 1 with
  | none => some s
  | some x => match x.owner with
    | .chan b =>
      let s := (s.unstore i x).progress i
      if p.status ≠ 0 then some (s.burstAnswered b (Status.ofCode p.status) false)
      else some (s.dataLands b x.dst (p.payload.take x.pkt.len))
    | _ => some ((s.unstore i x).progress i)

/-- READ_RSP (R330). -/
def execReadRsp (nd : Fin 2) (s : State) : Host.Outcome State Fault Refusal :=
  .next (s.handle nd (fun p => p.ptype == 2) State.readRspAt)

/-- ATOMIC_RSP at the issuer (R330, R391): the prior value is stored and the command completes. -/
def State.atomicRspAt (i : Nat) (p : Packet) (s : State) : Option State :=
  match s.storedFor i p.ref fun q => q.ptype == 3 && q.fetch with
  | none => some s
  | some x =>
    let s := (s.unstore i x).progress i
    match x.owner with
    | .cmd cid =>
      if p.status ≠ 0 then some (s.finish cid (Status.ofCode p.status))
      else
        let (st, s) := s.memWrite (collSrc (flowDie i - 2)) x.dst p.payload
        some (s.finish cid st)
    | _ => some s

/-- ATOMIC_RSP (R330). -/
def execAtomicRsp (nd : Fin 2) (s : State) : Host.Outcome State Fault Refusal :=
  .next (s.handle nd (fun p => p.ptype == 4) State.atomicRspAt)

/-- ACK (R334, R335). -/
def execAck (nd : Fin 2) (s : State) : Host.Outcome State Fault Refusal :=
  .next (s.handle nd (fun p => p.ptype == 7) fun i p s => some (s.ackFields i p.cumPsn p.sack))

/-- A packet that its target refused: its operation ends with the status (R331), a chunk's job with it (R369).
[log 78: DEDUCED] -/
def State.refusedPacket (s : State) (i : Nat) (x : Stored) (st : Status) : State :=
  let s := (s.ownerFailed i x true st).unstore i x
  if x.pkt.ptype = 6 then
    let k := chunkKey x.pkt.payload
    match s.job? (flowDie i - 2) k.1 k.2 with
    | some j => s.jobFails j st
    | none => s
  else s

/-- NACK (R331, R335): RNR holds a SEND until it is retried; ERR ends the operation, before the NACK's own
acknowledgement covers it. -/
def State.nackAt (i : Nat) (p : Packet) (s : State) : Option State :=
  match s.storedFor i p.ref fun _ => true with
  | none => some (s.ackFields i p.cumPsn p.sack)
  | some x =>
    if p.reason = 1 then
      let s := s.ackFields i p.cumPsn p.sack
      let f := s.flow i
      some (s.setFlow i { f with store := f.store.map fun y => if y.pkt.psn = p.ref then { y with rnr := true } else y
                                 tries := 0 })
    else some ((s.refusedPacket i x (Status.ofCode p.status)).ackFields i p.cumPsn p.sack)

/-- NACK (R331, R335). -/
def execNack (nd : Fin 2) (s : State) : Host.Outcome State Fault Refusal :=
  .next (s.handle nd (fun p => p.ptype == 8) State.nackAt)

/-- ACK_SEND (R334): what a flow owes is acknowledged, once the link has room. -/
def execAckSend (flow : FlowId) (s : State) : Host.Outcome State Fault Refusal :=
  let f := s.flow flow
  .next (if (f.ackNow || decide (0 < f.owed)) && (s.flowState flow == 1 || s.flowState flow == 2) then
      match s.respond flow (s.answer flow 7 .ok 0 0 []) with
      | some s => s.setFlow flow { s.flow flow with owed := 0, ackNow := false }
      | none => s
    else s)

/-! ### Timers (R335) -/

/-- RTO and RETRY_LIMIT of NET_TIMERS. -/
def State.rtoBase (s : State) : Nat := field (s.reg 0x70004) 11 0
def State.retryLimit (s : State) : Nat := field (s.reg 0x70004) 15 12

/-- RETRANSMIT_TIMEOUT (R335): the timer of a flow with unacknowledged packets that no RNR answer holds expires; at
RETRY_LIMIT timeouts without progress the flow fails with LINK_DOWN. [log 70: DEDUCED] -/
def execRetransmitTimeout (flow : FlowId) (s : State) : Host.Outcome State Fault Refusal :=
  let f := s.flow flow
  .next (if (s.flowState flow != 1 && s.flowState flow != 2) || f.store.all (fun x => x.rnr) || !s.flowUp flow then s
    else if s.retryLimit ≤ f.tries + 1 then s.flowFail flow .linkDown
    else
      let s := s.setFlow flow { f with tries := f.tries + 1, rto := 2 * (if f.rto = 0 then s.rtoBase else f.rto) }
      s.resendAll flow fun x => !x.rnr)

/-- RNR_RETRY (R335): SENDs that found no posted entry are sent again, and counted. -/
def execRnrRetry (flow : FlowId) (s : State) : Host.Outcome State Fault Refusal :=
  let f := s.flow flow
  let held := f.store.filter fun x => x.rnr
  .next (if held.isEmpty || !s.flowUp flow then s
    else
      let s := s.count (netDieReg (flowDie flow - 2) 8) held.length
      let s := s.setFlow flow { f with store := f.store.map fun x => { x with rnr := false } }
      held.foldl (fun s x => s.resend flow x) s)

end Sys2Proof.Machine
end

