-- ==== Sys2Proof/Machine/Update.lean ====
section
/-! DEFINITION. The arithmetic of gradient reduction and of the update stage: contributions, FP32 operations, the
optimizers, and AG records (R350, R354, R361 to R364). -/
namespace Sys2Proof.Machine

/-! ### FP32 operations (R362) -/

/-- An exact value or quotient rounded once to FP32. -/
def rne32 (x : XReal) : BitVec 32 := toFp32 .rne x
def rneQ32 (q : QReal) : BitVec 32 := BitVec.ofNat 32 (convElem 8 false .rne q).code

/-- a × b, and a × b + c rounded once. -/
def mul32 (a b : BitVec 32) : BitVec 32 := rne32 ((fp32 a).mul (fp32 b))
def fma32 (a b c : BitVec 32) : BitVec 32 := rne32 (((fp32 a).mul (fp32 b)).add (fp32 c))

/-- −a. -/
def neg32 (a : BitVec 32) : BitVec 32 := a ^^^ 0x80000000

/-- The integer square root, bit by bit from bit k − 1 down. -/
def isqrtBits (n : Nat) : Nat → Nat → Nat
  | 0, r => r
  | k + 1, r => isqrtBits n k (if (r + 2 ^ k) * (r + 2 ^ k) ≤ n then r + 2 ^ k else r)

/-- The correctly rounded square root: enough bits, and one more that tells whether the root is exact. -/
def sqrt32 (a : BitVec 32) : BitVec 32 :=
  match fp32 a with
  | .nan => rne32 .nan
  | .inf neg => rne32 (if neg then .nan else .inf false)
  | .fin neg m e =>
    if m = 0 then a
    else if neg then rne32 .nan
    else
      let k := if (e % 2 : Int) = 0 then 64 else 65
      let n := m * 2 ^ k
      let r := isqrtBits n 48 0
      rne32 (.fin false (2 * r + if r * r = n then 0 else 1) ((e - (k : Nat)) / 2 - 1))

/-- sign(c): +1, −1, 0 for either zero, NaN for NaN. -/
def sign32 (c : BitVec 32) : BitVec 32 :=
  match fp32 c with
  | .nan => rne32 .nan
  | .inf neg => if neg then 0xBF800000 else 0x3F800000
  | .fin neg m _ => if m = 0 then 0 else if neg then 0xBF800000 else 0x3F800000

/-- A constant of the job record: LR, DK, B1, B2, A1, A2, BC1, BC2, EPS, GSCALE, PSCALE in this order (R343). -/
def JobRec.const (r : JobRec) (i : Nat) : BitVec 32 := r.consts.getD i 0

/-- The update of one element (R362): weights, first and second moments, gradient. -/
def updateElem (r : JobRec) (w m v g : BitVec 32) : BitVec 32 × BitVec 32 × BitVec 32 :=
  let b1 := r.const 2
  let b2 := r.const 3
  let a2 := r.const 5
  let t := mul32 (r.const 4) g
  let (m', v', u) : BitVec 32 × BitVec 32 × BitVec 32 := match r.opt with
    | 0 => (fma32 b1 m t, v, fma32 b1 m t)
    | 1 =>
      let m' := fma32 b1 m t
      let v' := fma32 b2 v (mul32 a2 (mul32 g g))
      let den := rne32 ((fp32 (sqrt32 (mul32 v' (r.const 7)))).add (fp32 (r.const 8)))
      (m', v', rneQ32 ((fp32 (mul32 m' (r.const 6))).div (fp32 den)))
    | _ => (fma32 b2 m (mul32 a2 g), v, sign32 (fma32 b1 m t))
  (fma32 (neg32 (r.const 0)) u (mul32 (r.const 1) w), m', v')

/-- The gradient element of a sum at a grid (R361). -/
def gradElem (r : JobRec) (sum e : Int) : BitVec 32 := rne32 ((XReal.ofInt sum e).mul (fp32 (r.const 9)))

/-! ### Contributions (R350) -/

/-- x / 2^e rounded half to even, of a finite x. -/
def gridQuot (x : XReal) (e : Int) : Int :=
  match x with
  | .fin neg m ex =>
    let q := roundAt .rne m 1 ex e
    if neg then -Int.ofNat q else Int.ofNat q
  | _ => 0

/-- One running sum plus a contribution, and whether it saturated. -/
def satAdd (lim s q : Int) : Int × Bool :=
  if lim < s + q then (lim, true) else if s + q < -lim then (-lim, true) else (s + q, false)

/-- A position's contribution to a block (R350). -/
def contribute (wide : Bool) (xs : List XReal) (r : RsRec) : RsRec :=
  let lim : Int := if wide then 32767 else 127
  let bad := xs.any fun x => !x.isFin
  let qs := xs.map fun x => if bad then 0 else gridQuot x r.grid
  let ts := (r.sums.zip qs).map fun (p : Int × Int) => satAdd lim p.1 p.2
  let exps := (xs.filter fun x => x.isFin && !x.isZero).map fun x => (150 + x.log2).toNat
  { r with
    nan := r.nan || bad
    ovf := r.ovf || ts.any fun t => t.2
    sums := ts.map fun t => t.1
    csum := r.csum + BitVec.ofInt 16 qs.sum
    cnt := r.cnt + 1
    aexp := exps.foldl max r.aexp }

/-- The record with which the first position starts a block: only GRID is set. -/
def freshRec (block : Nat) (grid : Int) : RsRec :=
  ⟨block, 0, grid, 0, false, false, false, 0, List.replicate 32 0⟩

/-- The largest magnitude of a block's sums. -/
def sumMax (sums : List Int) : Nat := sums.foldl (fun m x => max m x.natAbs) 0

/-- The next grid code of a completed block (R354): `old` is the code in the table of this step. -/
def nextGrid (head old : Nat) (skipped : Bool) (sums : List Int) (e : Int) : Nat :=
  if skipped || sumMax sums == 0 then old
  else (max 0 (min 254 ((Int.ofNat (sumMax sums).log2 + e) - 6 + Int.ofNat head + 127))).toNat

/-- ceil(log2 n), n > 0. -/
def ceilLog2 (n : Nat) : Nat := if 2 ^ n.log2 = n then n.log2 else n.log2 + 1

/-- The grid of round 4 (R358). -/
def grid4 (aexp n : Nat) : Int := Int.ofNat aexp - 150 + Int.ofNat (ceilLog2 n) - 13

/-! ### AG records (R349, R364) -/

/-- The weights of a block converted to PFMT: its scale code, its bytes, elements saturated, and whether it became a NaN
block. -/
def agConvert (r : JobRec) (block : Nat) (ws : List (BitVec 32)) : Nat × List Byte × Nat × Bool :=
  let qs := ws.zipIdx.map fun (w, i) =>
    ((fp32 w).div (fp32 (r.const 10)), rndOf r.prnd r.seed r.tid (32 * block + i))
  if isWide r.pfmt then
    let cs := qs.map fun (q : QReal × Rnd) => convElem r.pfmt false q.2 q.1
    (0x7F, packCodes (fmtBits r.pfmt) (cs.map (·.code)), (cs.filter (·.sat)).length, false)
  else
    let o := convBlock r.pfmt none qs
    (o.scale, packCodes (fmtBits r.pfmt) o.codes, o.sats, o.nan)

end Sys2Proof.Machine
end

