-- ==== Sys2Proof/Machine/Collective.lean ====
section
/-! DEFINITION. The collective engine: jobs, reduce-scatter passes, repairs, the owner's update stage, the all-gather,
credits and aborts (R340 to R371). -/
namespace Sys2Proof.Machine

/-! ### Jobs -/

/-- A running job by its command. -/
def State.jobOf (s : State) (cid : Nat) : Option Job := s.jobs.find? fun j => j.cid == cid

/-- The state with a job changed. -/
def State.updJob (s : State) (cid : Nat) (f : Job → Job) : State :=
  { s with jobs := s.jobs.map fun j => if j.cid = cid then f j else j }

/-- A job meets a fault of its own (R355, R369). -/
def State.failJob (s : State) (cid : Nat) (st : Status) : State :=
  match s.jobOf cid with
  | some j => s.jobFails j st
  | none => s

/-- The first block of shard k (R341). -/
def JobRec.shardAt (r : JobRec) (k : Nat) : Nat := k * r.nb / r.n

/-- Bytes of a local gradient element, and of a block of parameters. -/
def JobRec.gSize (r : JobRec) : Nat := fmtBits r.gfmt / 8
def JobRec.pSize (r : JobRec) : Nat := 4 * fmtBits r.pfmt

/-- A job record from its bytes (R343). -/
def jobRec (bs : List Byte) : JobRec :=
  let w0 := bytesN bs 7 0
  let w1 := bytesN bs 15 8
  let addr := fun k => addrAt bs (32 + 8 * k)
  { n := bitsN w0 13 0, pos := bitsN w0 27 14, nextFlow := bitsN w0 45 28, prevFlow := bitsN w0 63 46
    tag := BitVec.ofNat 16 w1, step := BitVec.ofNat 16 (bitsN w1 31 16), pool := bitsN w1 39 32
    chunkBlk := bitsN w1 46 40, wide := bitN w1 47, opt := bitsN w1 49 48, head := bitsN w1 52 50
    gfmt := bitsN w1 56 53, pfmt := bitsN w1 60 57, prnd := bitsN w1 62 61
    nb := bytesN bs 19 16, tid := BitVec.ofNat 32 (bytesN bs 23 20), seed := BitVec.ofNat 64 (bytesN bs 31 24)
    gBase := addr 0, gridBase := addr 1, pBase := addr 2, psBase := addr 3, wBase := addr 4, mBase := addr 5
    vBase := addr 6, consts := (List.range 11).map fun i => BitVec.ofNat 32 (bytesN bs (91 + 4 * i) (88 + 4 * i)) }

/-- Whether a record is malformed (R343, R344). -/
def jobMalformed (bs : List Byte) (r : JobRec) : Bool :=
  decide (r.n < 2) || decide (16383 < r.n) || decide (r.n ≤ r.pos) || decide (r.pool < 2) || decide (255 < r.pool) ||
  r.chunkBlk == 0 || decide ((if r.wide then 50 else 100) < r.chunkBlk) || r.opt == 3 ||
  decide (r.gfmt < 6) || decide (8 < r.gfmt) || decide (8 < r.pfmt) || r.prnd % 2 == 1 || bitN (bytesN bs 15 8) 63 ||
  ((List.range 7).any fun k => bytesN bs (39 + 8 * k) (32 + 8 * k) / 2 ^ 52 != 0) || bytesN bs 159 132 != 0

/-- The extents of a record (R344), with the bytes each covers. -/
def jobExtents (r : JobRec) : List (Nat × Nat) :=
  let own := 128 * (r.shardAt (r.pos + 1) - r.shardAt r.pos)
  [(r.gBase, 32 * r.gSize * r.nb), (r.gridBase, 2 * r.nb), (r.pBase, r.pSize * r.nb), (r.wBase, own), (r.mBase, own)] ++
  (if r.pfmt < 6 then [(r.psBase, r.nb)] else []) ++ if r.opt = 1 then [(r.vBase, own)] else []

/-- The status area of a record (R371). -/
def statusArea (st : Status) (byPeer : Bool) (nan repairs fallback committed : Nat) : List Byte :=
  natLe 4 (st.code + 256 * (1 + bit1 byPeer 1)) ++ natLe 4 nan ++ natLe 4 repairs ++ natLe 4 fallback ++
    natLe 4 committed ++ List.replicate 12 0

/-- A job ends: its status area is written, then the command reports the status (R366, R371). [log 84: DEDUCED] -/
def State.jobEnds (s : State) (nd part rec cid : Nat) (st : Status) (area : List Byte) : State :=
  match s.memAt part (rec + 160) 32 with
  | some a =>
    let (w, s) := s.memWrite (collSrc nd) a area
    s.finish cid (if w = .ok then st else st.merge w)
  | none => s.finish cid st

/-- Why a job is refused (R345), and whether a received ABORT is the reason. [log 85: DEDUCED] -/
def State.jobRefused (s : State) (nd : Nat) (r : JobRec) : Option (Status × Bool) :=
  let ok := fun i => s.flowState i == 1 && flowDie i == 2 + nd && s.flowPerm i 4
  if !ok r.nextFlow || !ok r.prevFlow then some (.linkDown, false)
  else if 64 ≤ (s.jobs.filter fun j => j.nd == nd).length ∨ s.poolFree nd < r.pool then some (.bounds, false)
  else (s.aborts.find? fun (a : Nat × PendAbort) => a.1 == nd && a.2.tag == r.tag && a.2.step == r.step).map
    fun (a : Nat × PendAbort) => (Status.ofCode a.2.status, true)

/-- GRANT: slots freed so far plus POOL (R368). -/
def Job.grantNow (j : Job) : BitVec 16 := j.freed + BitVec.ofNat 16 j.jrec.pool

/-- A CREDIT leaves on PREV_FLOW, past the store, where its link carries it (R323, R368). -/
def State.sendCredit (s : State) (j : Job) : State :=
  let i := j.jrec.prevFlow
  let p := { s.packet i 6 (bareChunk j.jrec.tag j.jrec.step 0 .credit).encode with ref := j.grantNow.setWidth 32 }
  if (s.flowState i == 1 || s.flowState i == 2) && s.flowUp i && s.flowRoom i p then
    (s.transmitFlow i p).setJob { j with granted := j.grantNow }
  else s

/-- A job that has just started. -/
def newJob (cid nd part rec : Nat) (r : JobRec) : Job :=
  { cid := cid, nd := nd, part := part, recAddr := rec, jrec := r, sent := 0, grant := 0, freed := 0, granted := 0
    outq := [], nextBlk := 0, pendingAg := [], agDone := 0, ownDone := 0, repaired := false, agRepaired := false
    faults := [], stopped := false, byPeer := false, nanBlk := 0, repairs := 0, fallback := 0 }

/-- COL_JOB (R343 to R345, R391): the record is read and checked, and the job starts with a CREDIT.
[log 79: DEDUCED] -/
def execColJob (cid : Nat) (s : State) : Host.Outcome State Fault Refusal :=
  .next (match s.passed cid 0x30 with
    | none => s
    | some c =>
      let s := s.taken c
      let nd := c.engine - 160
      let rec_ := addrAt c.bytes 32
      if s.dieLost (2 + nd) then s.finish cid .dieLost
      else match s.memAt c.part rec_ 192 with
        | none => s.dropCmd c .bounds
        | some a =>
          let (st, s) := s.memRead (collSrc nd) a 192
          if st != .ok then s.finish cid st
          else
            let bs := s.bytes a 192
            let r := jobRec bs
            let flow := fun w => (s.engineFlow c.engine c.part w).getD 262144
            let r := { r with nextFlow := flow r.nextFlow, prevFlow := flow r.prevFlow }
            let abort := fun (s : State) (st : Status) => s.originateAbort nd r.nextFlow r.prevFlow r.tag r.step st.code
            if jobMalformed bs r then abort (s.dropCmd c .format) .aborted
            else if (jobExtents r).any fun (e : Nat × Nat) => (s.memAt c.part e.1 e.2).isNone then
              abort (s.dropCmd c .bounds) .aborted
            else match s.jobRefused nd r with
              | some (st, byPeer) =>
                (abort s st).jobEnds nd c.part rec_ cid st (statusArea st byPeer 0 0 0 0)
              | none =>
                let j := newJob cid nd c.part rec_ r
                (({ s with jobs := s.jobs ++ [j] }).startCmd c).sendCredit j)

/-! ### Local memory of a job (R350, R352, R353, R365) -/

/-- A job's read of n bytes at a device address; outside its regions it fails with BOUNDS. -/
def State.jobRead (s : State) (j : Job) (a n : Nat) : Status × List Byte × State :=
  match s.memAt j.part a n with
  | none => (.bounds, [], s)
  | some p =>
    let (st, s) := s.memRead (collSrc j.nd) p n
    (st, if st = .ok then s.bytes p n else [], s)

/-- A job's writes in order, up to the first that fails. -/
def State.jobWrites (s : State) (j : Job) : List (Nat × List Byte) → Status × State
  | [] => (.ok, s)
  | (a, bs) :: rest => match s.memAt j.part a bs.length with
    | none => (.bounds, s)
    | some p =>
      let (st, s) := s.memWrite (collSrc j.nd) p bs
      if st = .ok then s.jobWrites j rest else (st, s)

/-- The code of a block in the grid table of this step: 0xFF is taken as 0xFE and counted (R350, R353).
[log 81: DEDUCED] -/
def State.gridCode (s : State) (j : Job) (block : Nat) : Status × Nat × State :=
  let (st, bs, s) := s.jobRead j (j.jrec.gridBase + j.jrec.step.toNat % 2 * j.jrec.nb + block) 1
  let c := byteAt bs 0
  if st = .ok ∧ c = 255 then (st, 254, s.stale j.nd 1) else (st, c, s)

/-- A position's contribution to one record; where its read fails the record carries FAIL (R350, R352). -/
def State.contribOne (s : State) (j : Job) (wide : Bool) (r : RsRec) : Status × RsRec × State :=
  let k := j.jrec.gSize
  let (st, bs, s) := s.jobRead j (j.jrec.gBase + 32 * k * r.block) (32 * k)
  if st != .ok then (st, { r with fail := true }, s)
  else
    let xs := (List.range 32).map fun i => decodeElem j.jrec.gfmt (bytesN bs (k * i + k - 1) (k * i))
    (.ok, contribute wide xs r, s.count64 (colReg j.nd 8) 1)

/-- A position's contributions to the records of a chunk, and the chunk's STATUS. -/
def State.contribAll (s : State) (j : Job) (wide : Bool) : List RsRec → Status → List RsRec × Status × State
  | [], st => ([], st, s)
  | r :: rest, st =>
    let (e, r, s) := s.contribOne j wide r
    let (rs, st, s) := s.contribAll j wide rest (st.merge e)
    (r :: rs, st, s)

/-- The records with which the first position starts blocks in round 0, at the grids of its table (R350).
[log 81: DEDUCED] -/
def State.freshAll (s : State) (j : Job) : List Nat → Status → List RsRec × Status × State
  | [], st => ([], st, s)
  | b :: rest, st =>
    let (e, c, s) := s.gridCode j b
    let r := freshRec b (Int.ofNat c - 127)
    let (rs, st, s) := s.freshAll j rest (st.merge e)
    ((if e = .ok then r else { r with fail := true }) :: rs, st, s)

/-- Where an AG record goes on a device: P, PS and the next step's table (R353, R365). -/
def agWrites (r : JobRec) (a : AgRec) : List (Nat × List Byte) :=
  [(r.pBase + r.pSize * a.block, a.bytes)] ++
  (if r.pfmt < 6 then [(r.psBase + a.block, natLe 1 a.psc)] else []) ++
  [(r.gridBase + (r.step.toNat + 1) % 2 * r.nb + a.block, natLe 1 a.gridn)]

/-! ### The owner (R354 to R365) -/

/-- FP32 words of bytes. -/
def words32 (bs : List Byte) : List (BitVec 32) := (List.range 32).map fun i => BitVec.ofNat 32 (bytesN bs (4 * i + 3) (4 * i))

/-- The update stage takes a completed block (R360 to R365). -/
def State.updateBlock (s : State) (j : Job) (r : RsRec) : State :=
  let q := j.jrec
  let o := 128 * (r.block - q.shardAt q.pos)
  let (st, wb, s) := s.jobRead j (q.wBase + o) 128
  let (st1, mb, s) := s.jobRead j (q.mBase + o) 128
  let (st2, vb, s) := if q.opt = 1 then s.jobRead j (q.vBase + o) 128 else (.ok, [], s)
  let (st3, old, s) := s.gridCode j r.block
  let st := ((st.merge st1).merge st2).merge st3
  if st != .ok then s.failJob j.cid st
  else
    let ws := words32 wb
    let new := ((ws.zip ((words32 mb).zip (words32 vb))).zip r.sums).map
      fun (x : (BitVec 32 × BitVec 32 × BitVec 32) × Int) => updateElem q x.1.1 x.1.2.1 x.1.2.2 (gradElem q x.2 r.grid)
    let ws' := if r.nan then ws else new.map fun (x : BitVec 32 × BitVec 32 × BitVec 32) => x.1
    let bytes := fun (xs : List (BitVec 32)) => (xs.map fun w => natLe 4 w.toNat).flatten
    let back := if r.nan then [] else
      [(q.wBase + o, bytes ws'), (q.mBase + o, bytes (new.map fun (x : BitVec 32 × BitVec 32 × BitVec 32) => x.2.1))] ++
      if q.opt = 1 then [(q.vBase + o, bytes (new.map fun (x : BitVec 32 × BitVec 32 × BitVec 32) => x.2.2))] else []
    let (psc, bs, sats, nan) := agConvert q r.block ws'
    let a : AgRec := ⟨r.block, psc, nextGrid q.head old r.nan r.sums r.grid, r.nan, bs⟩
    let (st, s) := s.jobWrites j (back ++ agWrites q a)
    let s := if r.nan then s else s.count64 (colReg j.nd 0x10) 32
    let s := s.count (colReg j.nd 0x28) (sats + if nan then 1 else 0)
    if st != .ok then s.failJob j.cid st
    else s.updJob j.cid fun k => { k with
      pendingAg := if k.stopped then [] else k.pendingAg ++ [a], agDone := k.agDone + 1, ownDone := k.ownDone + 1 }

/-- A block that the owner asks to be repaired: round, width and grid (R355). -/
structure RepairAsk where
  block : Nat
  round : Nat
  wide  : Bool
  grid  : Int
  deriving DecidableEq, Repr

/-- The owner examines one record (R355): what it does, and the repair it asks for. -/
def State.examine (s : State) (j : Job) (c : Chunk) (st : Status) (r : RsRec) : Option RepairAsk × State :=
  let done := fun (s : State) =>
    let s := if c.round = 4 then (s.count (colReg j.nd 0x20) 1).updJob j.cid fun k => { k with fallback := k.fallback + 1 }
      else s
    s.updateBlock j r
  if r.fail then (none, s.failJob j.cid st)
  else if r.nan then (none, done ((s.count (colReg j.nd 0x24) 1).updJob j.cid fun k => { k with nanBlk := k.nanBlk + 1 }))
  else if r.cnt.toNat ≠ j.jrec.n ∨ (r.ovf = false ∧ r.csum ≠ BitVec.ofInt 16 r.sums.sum) then
    if c.round < 3 then (some ⟨r.block, c.round + 1, c.wide, r.grid⟩, s.count (colReg j.nd 0x1C) 1)
    else (none, (s.putBit (colReg j.nd 0) 20 true).failJob j.cid .csum)
  else if r.ovf then
    let s := (s.count (colReg j.nd 0x18) 1).updJob j.cid fun k => { k with repaired := true }
    if c.round < 3 then (some ⟨r.block, c.round + 1, c.wide, r.grid + 4⟩, s)
    else (some ⟨r.block, 4, true, grid4 r.aexp j.jrec.n⟩, s)
  else (none, done s)

/-- The owner examines the records of a chunk in order (R355, R360). -/
def State.examineAll (s : State) (j : Job) (c : Chunk) (st : Status) : List RsRec → List RepairAsk × State
  | [] => ([], s)
  | r :: rest =>
    let (a, s) := s.examine j c st r
    let (as, s) := s.examineAll j c st rest
    (a.toList ++ as, s)

/-- A REPAIR chunk for blocks of one round and one width (R348, R356). [log 86: DEDUCED] -/
def repairChunk (c : Chunk) (round : Nat) (wide : Bool) (as : List RepairAsk) : Chunk :=
  { wide := wide, round := round, repaired := false, status := 0, tag := c.tag, step := c.step, shard := c.shard
    first := (as.head?.map fun (a : RepairAsk) => a.block).getD 0
    body := .repair (as.map fun (a : RepairAsk) => (a.block, a.grid)) }

/-- REPAIR chunks of at most `n` blocks. -/
def repairSplit (c : Chunk) (round : Nat) (wide : Bool) (n : Nat) : Nat → List RepairAsk → List Chunk
  | 0, _ => []
  | k + 1, as => if as.isEmpty then [] else
    repairChunk c round wide (as.take n) :: repairSplit c round wide n k (as.drop n)

/-- The REPAIR chunks of what a chunk sends to repair (R356): requests of the next round, and of round 4. -/
def repairChunks (c : Chunk) (as : List RepairAsk) : List Chunk :=
  let one := fun (round : Nat) (wide : Bool) =>
    repairSplit c round wide (if wide then 50 else 100) 3 (as.filter fun (a : RepairAsk) => a.round == round && a.wide == wide)
  (if c.round < 3 then one (c.round + 1) c.wide else []) ++ if 3 ≤ c.round then one 4 true else []

/-! ### Chunks that arrive (R346, R350, R355, R356, R365, R368, R369) -/

/-- A packet that carries a chunk of a type; the reserved types go with RS. [log 83: DEDUCED] -/
def chunkOf (ctypes : List Nat) (p : Packet) : Bool := p.ptype == 6 && ctypes.contains (byteAt p.payload 0 % 8)

/-- The packets of class COL in which a chunk comes from its flow's optical port to the collective engine (R299). -/
def State.chunkIn (s : State) (i n : Nat) : State :=
  s.sendTo .col (flowSrc i).idx ⟨false, 2⟩ (flowSrc i).station
    { (collSrc (flowDie i - 2)).station with out := some (.netCrossbar, 4) } 0 n false false none

/-- The window and the permission of a COL data packet (R331, R334, R368): where it takes effect, `act` runs. -/
def State.colWindow (s : State) (i : Nat) (p : Packet) (act : State → State) : Option State :=
  match s.psnPlace i p.psn with
  | .behind => some (s.ackAgain i)
  | .past => some s
  | .inside off =>
    if s.flowPerm i 4 then some (act ((s.acceptPsn i off).chunkIn i p.payload.length))
    else if off = 0 then s.nackErr i p.psn .bounds
    else some (s.ackAgain i)

/-- A data chunk at a network die: discarded and counted where no job takes it or it cannot be read (R346).
[log 88: DEDUCED] -/
def State.chunkAt (nd : Nat) (act : Job → Chunk → State → State) (i : Nat) (p : Packet) (s : State) : Option State :=
  s.colWindow i p fun s =>
    let k := chunkKey p.payload
    match s.job? nd k.1 k.2 with
    | none => s.stale nd 1
    | some j => match Chunk.decode p.payload j.jrec.pfmt with
      | none => (s.stale nd 1).slotFreed nd k.1 k.2
      | some c => act j c s

/-- An RS chunk (R350, R352, R355, R356): a position that is not the owner adds and forwards, the owner adds and
examines. -/
def State.rsAt (nd : Nat) (j : Job) (c : Chunk) (s : State) : State :=
  match c.body with
  | .rs recs =>
    let (recs, st, s) := s.contribAll j c.wide recs (Status.ofCode c.status)
    if c.shard ≠ j.jrec.pos then
      s.updJob j.cid fun k => { k with outq := k.outq ++ [({ c with status := st.code, body := .rs recs }, false, true)] }
    else
      let (as, s) := s.examineAll j c st recs
      let out := (repairChunks c as).map fun (x : Chunk) => (x, true, false)
      s.updJob j.cid fun k => { k with freed := k.freed + 1, outq := if k.stopped then k.outq else k.outq ++ out }
  | _ => (s.stale nd 1).slotFreed nd c.tag c.step

/-- RS (R350). [log 83: DEDUCED] -/
def execRs (nd : Fin 2) (s : State) : Host.Outcome State Fault Refusal :=
  .next (s.handle nd (chunkOf [0, 5, 6, 7]) (State.chunkAt nd (State.rsAt nd)))

/-- A REPAIR chunk (R356): the first position starts an RS chunk at the requested grids. [log 86: DEDUCED] -/
def State.repairAt (nd : Nat) (j : Job) (c : Chunk) (s : State) : State :=
  match c.body with
  | .repair recs =>
    if j.stopped then s.slotFreed nd c.tag c.step
    else
      let (rs, st, s) := s.contribAll j c.wide (recs.map fun (x : Nat × Int) => freshRec x.1 x.2) .ok
      s.updJob j.cid fun k => { k with outq := k.outq ++ [({ c with status := st.code, body := .rs rs }, true, true)] }
  | _ => (s.stale nd 1).slotFreed nd c.tag c.step

/-- REPAIR (R356). -/
def execRepair (nd : Fin 2) (s : State) : Host.Outcome State Fault Refusal :=
  .next (s.handle nd (chunkOf [1]) (State.chunkAt nd (State.repairAt nd)))

/-- An AG chunk (R365): its records are written, and it goes on unless the successor is its owner. -/
def State.agAt (nd : Nat) (j : Job) (c : Chunk) (s : State) : State :=
  match c.body with
  | .ag recs =>
    let (st, s) := s.jobWrites j ((recs.map (agWrites j.jrec)).flatten)
    let s := if st = .ok then s else s.failJob j.cid st
    s.updJob j.cid fun k =>
      let k := { k with agDone := k.agDone + recs.length, agRepaired := k.agRepaired || c.repaired }
      if (k.jrec.pos + 1) % k.jrec.n = c.shard then { k with freed := k.freed + 1 }
      else { k with outq := k.outq ++ [(c, false, true)] }
  | _ => (s.stale nd 1).slotFreed nd c.tag c.step

/-- AG (R365). -/
def execAg (nd : Fin 2) (s : State) : Host.Outcome State Fault Refusal :=
  .next (s.handle nd (chunkOf [2]) (State.chunkAt nd (State.agAt nd)))

/-- A CREDIT chunk (R368): it bypasses the receive window. -/
def State.creditAt (nd : Nat) (i : Nat) (p : Packet) (s : State) : Option State :=
  let k := chunkKey p.payload
  some (match s.job? nd k.1 k.2, Chunk.decode p.payload 0 with
    | some j, some _ => if s.flowPerm i 4 then s.setJob { j with grant := p.ref.setWidth 16 } else s
    | _, _ => s.stale nd 1)

/-- CREDIT (R368). -/
def execCredit (nd : Fin 2) (s : State) : Host.Outcome State Fault Refusal :=
  .next (s.handle nd (chunkOf [3]) (State.creditAt nd))

/-- A pending abort is held; of a full table of 64 the oldest goes (R369). [log 79: DEDUCED] -/
def State.holdAbort (s : State) (nd : Nat) (a : PendAbort) : State :=
  let mine := s.aborts.filter fun (x : Nat × PendAbort) => x.1 == nd
  let keep := match mine with
    | x :: _ => if 64 ≤ mine.length then s.aborts.erase x else s.aborts
    | [] => s.aborts
  { s with aborts := keep ++ [(nd, a)] }

/-- An ABORT chunk (R369): the job stops and the ABORT goes on once in the direction it travelled. [log 88: DEDUCED] -/
def State.abortAt (nd : Nat) (i : Nat) (p : Packet) (s : State) : Option State :=
  s.colWindow i p fun s =>
    let k := chunkKey p.payload
    match Chunk.decode p.payload 0 with
    | none => s.stale nd 1
    | some c =>
      let s := s.putBit (colReg nd 0) 21 true
      match s.job? nd k.1 k.2 with
      | none => s.holdAbort nd ⟨k.1, k.2, c.status⟩
      | some j =>
        if j.stopped then s
        else (s.setJob (j.halt (Status.ofCode c.status) true)).sendAbort nd
          (if i = j.jrec.nextFlow then j.jrec.prevFlow else j.jrec.nextFlow) k.1 k.2 c.status

/-- ABORT (R369). -/
def execAbort (nd : Fin 2) (s : State) : Host.Outcome State Fault Refusal :=
  .next (s.handle nd (chunkOf [4]) (State.abortAt nd))

/-! ### Chunks that leave (R342, R365, R367, R368) -/

/-- The packets of class COL in which a chunk goes from the collective engine to its flow's optical port (R299). -/
def State.sendChunk (s : State) (j : Job) (n : Nat) : State :=
  let i := j.jrec.nextFlow
  s.sendTo .col (collSrc j.nd).idx ⟨false, 2⟩ (collSrc j.nd).station { (flowSrc i).station with out := some (.netCrossbar, 0) } 0 n
    false false none

/-- A chunk leaves for the successor: it takes one of its slots (R367). A forwarded chunk frees its own slot when it is
acknowledged. -/
def State.ship (s : State) (j : Job) (c : Chunk) (fwd : Bool) : State :=
  let i := j.jrec.nextFlow
  ((s.sendChunk j c.encode.length).enqueue i (s.packet i 6 c.encode) (if fwd then .ring j.nd j.jrec.tag j.jrec.step else .none) 0).updJob j.cid
    fun k => { k with sent := k.sent + 1 }

/-- The records the next AG chunk takes: a rising run within 128 block indices (R346, R365). -/
def agRun (limit lo : Nat) : Nat → List AgRec → List AgRec
  | _, [] => []
  | prev, a :: rest =>
    if limit = 0 ∨ a.block ≤ prev ∨ lo + 128 ≤ a.block then [] else a :: agRun (limit - 1) lo a.block rest

/-- An AG chunk of the owner leaves (R349, R365). [log 87: DEDUCED] -/
def State.shipAg (s : State) (j : Job) : State :=
  match j.pendingAg with
  | [] => s
  | a :: rest =>
    let run := a :: agRun (min j.jrec.chunkBlk (4064 / agLen j.jrec.pfmt) - 1) a.block a.block rest
    let c : Chunk := { bareChunk j.jrec.tag j.jrec.step 0 (.ag run) with
      repaired := j.repaired, shard := j.jrec.pos, first := a.block }
    (s.ship j c false).updJob j.cid fun k => { k with
      pendingAg := k.pendingAg.drop run.length, agRepaired := k.agRepaired || k.repaired }

/-- The first position starts the next round-0 chunk of its predecessor's shard (R342, R343, R350). -/
def State.startPass (s : State) (j : Job) : State :=
  let q := j.jrec
  let shard := (q.pos + q.n - 1) % q.n
  let b := q.shardAt shard + j.nextBlk
  let n := min q.chunkBlk (q.shardAt (shard + 1) - b)
  if n = 0 then s
  else
    let (rs, st, s) := s.freshAll j (span b n) .ok
    let (rs, st, s) := s.contribAll j q.wide rs st
    let c : Chunk := { bareChunk q.tag q.step st.code (.rs rs) with wide := q.wide, shard := shard, first := b }
    (s.ship j c false).updJob j.cid fun k => { k with nextBlk := k.nextBlk + n }

/-- A chunk that waits in `outq` leaves; an injection that stood in a slot frees it, and REPAIR records are counted.
[log 82: DESIGN CHOICE] -/
def State.shipQueued (s : State) (j : Job) (x : Chunk × Bool × Bool) : State :=
  let n := match x.1.body with
    | .repair recs => recs.length
    | _ => 0
  (s.ship j x.1 (!x.2.1)).updJob j.cid fun k => { k with
    outq := k.outq.erase x, repairs := k.repairs + n, freed := if x.2.1 && x.2.2 then k.freed + 1 else k.freed }

/-- What a job sends next: a chunk is forwarded with one free slot at the successor, or injected with two: a repair first,
then updated records, then a new pass (R315, R367). [log 82: DESIGN CHOICE] -/
def State.injectNext (s : State) (j : Job) : State :=
  let room := (j.grant - j.sent).toNat
  if s.flowState j.jrec.nextFlow ≠ 1 ∨ room = 0 then s
  else match j.outq.find? fun (x : Chunk × Bool × Bool) => !x.2.1 with
    | some x => s.shipQueued j x
    | none =>
      if room < 2 ∨ j.stopped = true then s
      else match j.outq with
        | x :: _ => s.shipQueued j x
        | [] => if j.pendingAg.isEmpty then s.startPass j else s.shipAg j

/-- CHUNK_INJECT (R315, R367), in a slot of the engine that the network duty lets go (R35, R309). -/
def execChunkInject (nd : Fin 2) (tag step : BitVec 16) (s : State) : Host.Outcome State Fault Refusal :=
  .next (match s.job? nd tag step with
    | none => s
    | some j => match s.colSlot nd with
      | (true, s) => s.injectNext j
      | (false, s) => s)

/-- CREDIT_SEND (R368). -/
def execCreditSend (nd : Fin 2) (tag step : BitVec 16) (s : State) : Host.Outcome State Fault Refusal :=
  .next (match s.job? nd tag step with
    | some j => s.sendCredit j
    | none => s)

/-- COL_JOB_COMPLETE (R366, R371): all blocks are written, or the job has stopped, and no chunk of it is left here or in
flight. [log 84: DEDUCED] -/
def execColJobComplete (nd : Fin 2) (tag step : BitVec 16) (s : State) : Host.Outcome State Fault Refusal :=
  .next (match s.job? nd tag step with
    | none => s
    | some j =>
      if (j.agDone = j.jrec.nb ∨ j.stopped = true) ∧ j.outq = [] ∧ j.pendingAg = [] ∧
          s.chunksInFlight j.jrec.nextFlow tag step = false ∧ s.chunksInFlight j.jrec.prevFlow tag step = false then
        let st := j.faults.foldl Status.merge (if j.agRepaired then .ovf else .ok)
        let s := { s with jobs := s.jobs.filter fun k => k.cid != j.cid }
        s.jobEnds j.nd j.part j.recAddr j.cid st (statusArea st j.byPeer j.nanBlk j.repairs j.fallback j.ownDone)
      else s)

end Sys2Proof.Machine
end

