-- ==== Sys2Proof/Machine/Dma.lean ====
section
/-! DEFINITION. DMA descriptors from their fetch to their completion, and queue DM (R181, R185, R215, R249 to R267, R313,
R329, R330). -/
namespace Sys2Proof.Machine

/-! ### Host errors of a descriptor (R251 to R258, R330) -/

/-- A device address that lies in the remote aperture. -/
def inAperture (a : Nat) : Bool := (aperture a).isSome

/-- Reserved fields and values of a descriptor's words (R251, R253 to R255); of a DMA.XFER the OWN and SIG fields are
ignored (R267), and on a user channel SIG_IDX has 4 bits. -/
def Desc.reservedBits (d : Desc) (user : Bool) : Bool :=
  d.w 0 / 2 ^ 27 != 0 || (user && d.isRing && decide (16 ≤ d.sigIdx)) ||
  (d.op != 2 && d.w 1 / 2 ^ 52 != 0) || d.w 2 / 2 ^ 52 != 0 ||
  match d.kind with
  | 0 => d.w 3 / 2 ^ 40 != 0 || d.w 4 != 0 || d.w 5 != 0 || d.w 6 != 0
  | 1 => false
  | _ => let e := bitsN (d.w 4) 36 32
    let wl := bitsN (d.w 4) 43 38
    d.w 3 / 2 ^ 52 != 0 || d.w 4 / 2 ^ 44 != 0 || d.w 5 / 2 ^ 32 != 0 || d.w 6 != 0 ||
      decide (16 < e) || decide (wl < e) || decide (44 < wl)

/-- An operation, kind and format that R256 does not allow. -/
def Desc.badOp (d : Desc) : Bool :=
  decide (3 < d.kind) || match d.op with
  | 0 => d.afmt != 0
  | 1 => decide (4 < d.afmt) || (if d.afmt = 0 then d.kind != 0 else d.kind == 2)
  | 2 => d.afmt != 0 || d.kind == 2
  | _ => true

/-- A misalignment that R256 forbids. -/
def Desc.misaligned (d : Desc) : Bool :=
  d.op == 1 &&
  if d.afmt = 0 then d.src % 64 != 0 || d.dst % 64 != 0 || d.total % tileBytes != 0
  else
    let k := afmtSize d.afmt
    d.src % k != 0 || d.dst % k != 0 || match d.kind with
    | 0 => d.total % k != 0
    | 1 => d.n0 % k != 0 || ([1, 2, 3].any fun i => d.ss i % (k : Int) != 0 || d.ds i % (k : Int) != 0)
    | _ => d.esz % k != 0 || d.dstride % (k : Int) != 0

/-- An add whose destination lies in a region that R256 does not allow. -/
def State.badAddTarget (s : State) (part : Nat) (d : Desc) : Bool :=
  d.op == 1 && match s.physAddr part d.dst with
  | none => false
  | some p => match s.region p with
    | .near _ => false
    | .scratch _ => d.afmt != 0
    | .outside => false
    | _ => true

/-- What R330 forbids in the remote aperture: both sides, an add, an indexed side. [log 51: DEDUCED] -/
def Desc.badRemote (d : Desc) : Bool :=
  let src := d.op != 2 && inAperture d.src
  let dst := inAperture d.dst
  (src && dst) || (d.op == 1 && (src || dst)) || (d.kind == 2 && src) || (d.kind == 3 && dst)

/-- A host error with REASON = FORMAT (R258). [log 48: DEDUCED] [log 51: DEDUCED] -/
def State.descFormat (s : State) (ch : Nat) (d : Desc) : Bool :=
  d.reservedBits (decide (ch < 512)) || d.badOp || d.misaligned || s.badAddTarget (s.chanPart ch) d || d.badRemote

/-! ### Extents (R257) -/

/-- Runs of n bytes at a base plus multiples: the lowest byte and the bytes to the highest. -/
def reachOf (base : Nat) (n : Nat) (steps : List Int) : Int × Nat :=
  (steps.foldl (fun a t => a + min 0 t) (base : Int), n + (steps.map Int.natAbs).sum)

/-- The source, destination and index extents of a descriptor; of an empty one, none. -/
def Desc.srcExt (d : Desc) : List (Int × Nat) :=
  if d.op = 2 then [] else match d.kind with
  | 0 => [((d.src : Int), d.total)]
  | 1 => [reachOf d.src d.n0 [((d.n1 : Int) - 1) * d.ss 1, ((d.n2 : Int) - 1) * d.ss 2, ((d.n3 : Int) - 1) * d.ss 3]]
  | 2 => [((d.src : Int), 2 ^ bitsN (d.w 4) 43 38)]
  | _ => [reachOf d.src d.esz [((d.countE : Int) - 1) * d.dstride]]
def Desc.dstExt (d : Desc) : List (Int × Nat) :=
  match d.kind with
  | 0 => [((d.dst : Int), d.total)]
  | 1 => [reachOf d.dst d.n0 [((d.n1 : Int) - 1) * d.ds 1, ((d.n2 : Int) - 1) * d.ds 2, ((d.n3 : Int) - 1) * d.ds 3]]
  | 2 => [reachOf d.dst d.esz [((d.countE : Int) - 1) * d.dstride]]
  | _ => [((d.dst : Int), 2 ^ bitsN (d.w 4) 43 38)]
def Desc.idxExt (d : Desc) : List (Int × Nat) :=
  if d.kind = 2 ∨ d.kind = 3 then [((d.w 3 % 2 ^ 52 : Nat), d.countE * d.idxSize)] else []

/-- Every extent a descriptor touches. [log 46: DEDUCED] [log 53: DEDUCED] -/
def Desc.extents (d : Desc) : List (Int × Nat) := if d.total = 0 then [] else d.srcExt ++ d.dstExt ++ d.idxExt

/-- The whole-module address of an extent that lies within one region (R25, R26). [log 60: DEDUCED] -/
def State.extentAt (s : State) (part : Nat) (e : Int × Nat) : Option Nat :=
  if e.1 < 0 ∨ 2 ^ 52 < e.1 + e.2 then none
  else match s.physAddr part e.1.toNat with
    | none => none
    | some p => if s.region p = .outside ∨ s.extentOk p e.2 = false then none else some p

/-- Whether an extent reaches register space outside the instruction-memory windows. -/
def regExtent (e : Int × Nat) : Bool :=
  let lo : Int := 0xF80000000000
  decide (e.1 < lo + 0x4000000) && decide (lo < e.1 + e.2) &&
    !(decide (lo + 0x2000000 ≤ e.1) && decide (e.1 + e.2 ≤ lo + 0x2800000))

/-- The flow of a side in the remote aperture. -/
def State.sideFlow (s : State) (part a : Nat) : Option Nat :=
  match s.physAddr part a with
  | some p => match s.region p with
    | .remote f _ => some f
    | _ => none
  | none => none

/-- What a flow answers to an operation from a die before anything moves (R329, R447). [log 52: DEDUCED] -/
def State.flowReady (s : State) (die f : Nat) : Status :=
  if s.pathLost die (flowDie f) then .dieLost else if s.flowState f = 1 then .ok else .linkDown

/-- What a descriptor meets before anything moves (R215, R257, R258, R329): its status, and whether it is dropped. Of what is
found in the same check the first under R14 counts. [log 46: DEDUCED] [log 52: DEDUCED] -/
def State.startCheck (s : State) (ch : Nat) (d : Desc) : Status × Bool :=
  let part := s.chanPart ch
  let es := d.extents
  let regs := es.any regExtent
  let regsp := match d.origin with
    | .xfer _ _ r _ => r
    | _ => flag (s.reg (chanReg ch 8)) 5
  if regs && !regsp && !d.isXfer then (.priv, true)
  else
    let out := (regs && !regsp) || (es.any fun e => (s.extentAt part e).isNone) ||
      (d.idxExt.any fun e => inAperture e.1.toNat) ||
      (decide (512 ≤ ch) && d.sigEn && (s.physCtr part d.sigIdx).isNone)
    let sides := if d.total = 0 then [] else (if d.op = 2 then [] else [d.src]) ++ [d.dst]
    ((sides.filterMap (s.sideFlow part)).foldl (fun st f => st.merge (s.flowReady (chanDie ch) f))
      (if out then .bounds else .ok), false)

/-! ### Pins (R185) -/

/-- A preloaded bank is released so that its launch is preloaded again (R185, fourth row). -/
def State.releasePreload (s : State) (x : Nat × Bool) : State :=
  let t := s.tile x.1
  s.setTile x.1 (t.setBank x.2 { t.bank x.2 with phase := .loading, pinned := false })

/-- The row of R185 that a DMA.XFER's write into instruction memory takes: whether it is refused, whether its bursts
need not wait, the launches to preload again. A forced write discards every task it meets and proceeds. -/
def State.pinRow (s : State) (t cid seq : Nat) (force : Bool) (met : List (Nat × Bool)) :
    Bool × Bool × List (Nat × Bool × Nat) × State :=
  let bank := fun (x : Nat × Bool) => (s.tile x.1).bank x.2
  if force then
    (false, true, [], met.foldl (fun s (x : Nat × Bool) =>
      (s.abortXfers x.1 (bank x).cid (if x.1 = t then some seq else none)).abortTask x.1 (bank x).cid) s)
  else if met.any fun x => x.1 == t && (bank x).cid == cid then (true, true, [], s)
  else if met.all fun x => (bank x).phase == .preloaded then
    (false, true, met.map fun x => (x.1, x.2, (bank x).cid), met.foldl State.releasePreload s)
  else (false, false, [], s)

/-- The command of a DMA.XFER in flight. -/
def State.xferCmd (s : State) (ch : Nat) (d : Desc) : Option QCmd :=
  match d.origin with
  | .xfer seq _ _ _ => (s.tile (ch / 4)).dmFlight.find? fun c => c.seq == seq
  | _ => none

/-! ### Fetch and start (R249, R250, R256, R265, R267) -/

/-- A die whose units have power and are in service. -/
def State.dieOn (s : State) (d : Nat) : Bool :=
  (match s.mode with | .off => false | .tripped => false | _ => true) && !s.dieLost d

/-- A descriptor as it stands after its fetch. -/
def freshDesc (id : Nat) (o : DescOrigin) (words : List Word) : Desc :=
  { id := id, origin := o, words := words, phase := .fetched, pos := 0, cur := none, openB := 0, psns := [], status := .ok
    fail := none, stop := false, byReg := false, dropped := false, reason := .ok, settled := false, again := []
    host := [], far := [] }

/-- Eight words of 64 bytes. -/
def descWords (bs : List Byte) : List Word := (List.range 8).map fun i => BitVec.ofNat 64 (bytesN bs (8 * i + 7) (8 * i))

/-- A fetched descriptor, dropped at once where it is a host error of form (R258). [log 48: DEDUCED] -/
def State.checkedDesc (s : State) (ch : Nat) (o : DescOrigin) (words : List Word) : Desc :=
  let d := freshDesc (s.chan ch).nextId o words
  if s.descFormat ch d then { d with phase := .done, dropped := true, reason := .format } else d

/-- The address of ring entry i, as the partition writes it. -/
def State.entryAddr (s : State) (ch : Nat) (i : BitVec 16) : Nat :=
  (s.reg (chanReg ch 0)).toNat + 64 * (i.toNat % s.ringLen ch)

/-- Whether a channel fetches its next ring entry (R250, R261 to R268). [log 50: DEDUCED] -/
def State.mayFetch (s : State) (ch : Nat) : Bool :=
  let c := s.chan ch
  s.dieOn (chanDie ch) && s.running ch && !s.halted ch && !s.stopped ch && !c.wbFail &&
    !flag (s.reg (chanReg ch 0x18)) 10 && decide (c.flight.length < 8) && !c.flight.any fun d => d.isRing && d.stop

/-- DESCRIPTOR_FETCH (R250, R258, R265): entry CONS, or the one after those in flight; an entry with OWN = 0 sets
OWN_WAIT, one that cannot be fetched halts the channel. `bus` is a bus error of the fetch. -/
def execDescriptorFetch (ch : ChanId) (bus : Bool) (s : State) : Host.Outcome State Fault Refusal :=
  let c := s.chan ch
  let i := s.cons ch + BitVec.ofNat 16 (c.flight.filter Desc.isRing).length
  .next (if !s.mayFetch ch || i == s.prod ch then s
    else
      let a := s.entryAddr ch i
      match s.memAt (s.chanPart ch) a 64 with
      | none => s.fetchFault ch .bounds a false
      | some p =>
        if bus then s.fetchFault ch .bus a false
        else
          let (st, s) := s.memRead (chanSrc ch) p 64
          if st != .ok then s.fetchFault ch st a false
          else
            let ws := descWords (s.bytes p 64)
            if flag (ws.getD 0 0) 0 then
              let c := s.chan ch
              s.setChan ch { c with flight := c.flight ++ [s.checkedDesc ch (.ring i) ws], nextId := c.nextId + 1 }
            else s.putBit (chanReg ch 0x18) 10 true)

/-- A DMA.XFER's descriptor stands ahead of the ring entries that have not started (R267). -/
def insertXfer (d : Desc) : List Desc → List Desc
  | [] => [d]
  | e :: r => if e.isRing && e.phase == .fetched then d :: e :: r else e :: insertXfer d r

/-- A DMA.XFER at the head of DM is taken by its channel (R215, R267): misplaced, it completes BOUNDS; its descriptor
unreadable, MEM_UE. -/
def State.takeXfer (s : State) (t : Nat) (c : QCmd) (ch desc : Nat) (force regsp : Bool) : State :=
  if desc % 64 ≠ 0 ∨ spSize < desc + 64 then s.retire t c .bounds .dm
  else
    let (bad, s) := s.spCheck t desc 64
    if bad then s.retire t c .memUe .dm
    else
      let n := 4 * t + ch
      let d := s.checkedDesc n (.xfer c.seq desc regsp force) (descWords (s.sp t desc 64))
      let x := s.tile t
      let k := s.chan n
      (s.setTile t { x with dmFlight := x.dmFlight ++ [c] }).setChan n
        { k with flight := insertXfer d k.flight, nextId := k.nextId + 1 }

/-- Whether the head of DM is held (R137, R175, R248): by the interlock or the adder. -/
def Tile.dmHeld (x : Tile) (c : QCmd) : Bool := x.interlocked c || x.adderHolds c

/-- Whether a user channel can take a DMA.XFER: it has none in flight (R177), and room among its eight descriptors
(R268). -/
def State.xferRoom (s : State) (t ch : Nat) : Bool :=
  !((s.tile t).dmFlight.any fun d => match d.work with
    | .xfer c _ _ _ _ => c == ch
    | _ => false) && decide ((s.chan (4 * t + ch)).flight.length < 8)

/-- Whether what takes the head of DM can accept it (R175). -/
def State.dmRoom (s : State) (t : Nat) (c : QCmd) : Bool :=
  match c.work with
  | .xfer ch _ _ _ _ => s.xferRoom t ch
  | _ => true

/-- What the head of DM does (R181, R215, R216); a SYN.WAITGE is released by its own row. -/
def State.dmStart (s : State) (t : Nat) (c : QCmd) (rest : List QCmd) : State :=
  let pop := s.setTile t { s.tile t with dm := rest }
  let part := if s.split then tileDie t else 0
  match c.work with
  | .signal ctr v => match s.physCtr part ctr with
    | some i => (pop.ctrAdd i v).retire t c .ok .dm
    | none => pop.retire t c .bounds .dm
  | .cset ctr v => match s.physCtr part ctr with
    | some i => (pop.ctrSet i v).retire t c .ok .dm
    | none => pop.retire t c .bounds .dm
  | .xfer ch desc _ force regsp => pop.takeXfer t c ch desc force regsp
  | _ => s

/-- DM_QUEUE_HEAD_START (R175, R181): the examination of queue DM's head in one cycle; a head that waits only on its
event counts the cycle (R179). -/
def execDmQueueHeadStart (t : TileId) (s : State) : Host.Outcome State Fault Refusal :=
  let x := s.tile t
  .next (match x.dm with
    | [] => s
    | c :: rest =>
      if !s.tileOn t || x.dmHeld c || !s.dmRoom t c then s
      else if !s.waitMet t c then s.count64 (tileBase t + 0x60) 1
      else s.dmStart t c rest)

/-- WAITGE_RELEASE (R181, R216, R448): the counter is at least the value, or it is lost. -/
def execWaitgeRelease (t : TileId) (s : State) : Host.Outcome State Fault Refusal :=
  let x := s.tile t
  .next (match x.dm with
    | [] => s
    | c :: rest => match c.work with
      | .waitge ctr v =>
        if !s.tileOn t || !s.waitMet t c then s
        else
          let pop := s.setTile t { x with dm := rest }
          match s.physCtr (if s.split then tileDie t else 0) ctr with
          | none => pop.retire t c .bounds .dm
          | some i =>
            if s.pathLost (tileDie t) (ctrDie i) then pop.retire t c .dieLost .dm
            else if v ≤ s.ctr i then pop.retire t c .ok .dm
            else s
      | _ => s)

/-- Whether a descriptor may start or go on: a ring runs, and neither it nor the mover has halted (R261 to R268). -/
def State.mayMove (s : State) (ch : Nat) (d : Desc) : Bool :=
  s.dieOn (chanDie ch) && !s.stopped ch && (!d.isRing || !s.halted ch)

/-- A descriptor that has been fetched and not started. -/
def Desc.waits (d : Desc) : Bool := d.phase == .fetched && !d.stop

/-- A descriptor that passed its checks starts, once R185 has decided how it meets pins. A command refused for its own
task's pin keeps BOUNDS as its reason. [log 55: DEDUCED] -/
def State.begin (s : State) (ch : Nat) (d : Desc) : Desc × State :=
  let go := { d with phase := .moving }
  match (if d.total = 0 then [] else d.dstExt) with
  | e :: _ => match s.extentAt (s.chanPart ch) e, s.xferCmd ch d, d.origin with
    | some p, some c, .xfer _ _ _ force => match s.imemOff (s.chanPart ch) p with
      | none => (go, s)
      | some o =>
        let (refused, settled, again, s) := s.pinRow (ch / 4) c.cid c.seq force (s.pinsMet o e.2)
        if refused then ({ d with phase := .done, status := .bounds, reason := .bounds }, s)
        else ({ go with settled := settled, again := again }, s)
    | _, _, _ => (go, s)
  | [] => (go, s)

/-- The next fetched descriptor of a channel with an operation starts (R256, R257): dropped, ended with BOUNDS, ended by
its flow as R262 states, or moving. -/
def State.startDesc (s : State) (ch op : Nat) : State :=
  match (s.chan ch).flight.find? Desc.waits with
  | none => s
  | some d =>
    if d.op ≠ op ∨ s.mayMove ch d = false ∨ (d.isRing = true ∧ s.running ch = false) then s
    else
      let put := fun (s : State) (e : Desc) =>
        s.setChan ch { s.chan ch with flight := replaceFirst Desc.waits (fun _ => e) (s.chan ch).flight }
      match s.startCheck ch d with
      | (st, true) => put s { d with phase := .done, dropped := true, reason := st }
      | (.bounds, false) => put s { d with phase := .done, status := .bounds }
      | (.ok, false) => let (e, s) := s.begin ch d
        put s e
      | (st, false) => put s { d with phase := .moving, fail := some (st, d.dst, true) }

/-- DESCRIPTOR_COPY (R256). -/
def execDescriptorCopy (ch : ChanId) (s : State) : Host.Outcome State Fault Refusal := .next (s.startDesc ch 0)

/-- DESCRIPTOR_ADD (R256). -/
def execDescriptorAdd (ch : ChanId) (s : State) : Host.Outcome State Fault Refusal := .next (s.startDesc ch 1)

/-- DESCRIPTOR_FILL (R256). -/
def execDescriptorFill (ch : ChanId) (s : State) : Host.Outcome State Fault Refusal := .next (s.startDesc ch 2)

/-! ### Bursts (R253 to R256, R259) -/

/-- The window offset of an indexed element (R255): read with its index, which may wrap. -/
def State.indexOf (s : State) (ch : Nat) (d : Desc) (e : Nat) : Status × Nat × State :=
  let part := s.chanPart ch
  match s.physAddr part (d.w 3 % 2 ^ 52 + e * d.idxSize) with
  | none => (.bounds, 0, s)
  | some p =>
    let (st, bs, s) := s.moveRead (chanSrc ch) part false p d.idxSize
    let off := leNat bs * d.esz
    let win := 2 ^ bitsN (d.w 4) 43 38
    let s := if st = .ok ∧ win ≤ off then s.count (chanReg ch 0x34) 1 else s
    (st, off % win, s)

/-- Whether the index of the element under way has still to be read (R255). -/
def Desc.wantsIndex (d : Desc) : Bool :=
  (d.kind == 2 || d.kind == 3) && d.cur.isNone && match d.origin with
  | .host _ _ => false
  | _ => true

/-- Where the next byte of a descriptor goes from and to, and the bytes left of its run or element. -/
def Desc.place (d : Desc) (cur : Nat) : Nat × Nat × Nat :=
  match d.kind with
  | 0 => (d.src + d.pos, d.dst + d.pos, d.total - d.pos)
  | 1 =>
    let r := d.pos / d.n0
    let i : Int := (d.pos % d.n0 : Nat)
    let i1 : Int := (r % d.n1 : Nat)
    let i2 : Int := (r / d.n1 % d.n2 : Nat)
    let i3 : Int := (r / d.n1 / d.n2 : Nat)
    ((d.src + i + i1 * d.ss 1 + i2 * d.ss 2 + i3 * d.ss 3).toNat, (d.dst + i + i1 * d.ds 1 + i2 * d.ds 2 + i3 * d.ds 3).toNat,
      d.n0 - d.pos % d.n0)
  | k =>
    let e := d.pos / d.esz
    let o := d.pos % d.esz
    let dense : Int := (o : Int) + e * d.dstride
    if k = 2 then (d.src + cur + o, (d.dst + dense).toNat, d.esz - o)
    else ((d.src + dense).toNat, d.dst + cur + o, d.esz - o)

/-- Bytes from an address to the next 4 KiB boundary. -/
def toBoundary (a : Nat) : Nat := 4096 - a % 4096

/-- The next burst of a descriptor (R259): a tile add whole, else at most 4 KiB within one run or element, crossing no
4 KiB boundary on either side. Of an MV.HOST transfer the words hold both addresses and the length. -/
def Desc.nextBurst (d : Desc) (cur : Nat) : Burst :=
  match d.origin with
  | .host _ _ =>
    let src := d.w 1 + d.pos
    let dst := d.w 2 + d.pos
    ⟨src, dst, min (d.w 3 - d.pos) (min (toBoundary src) (toBoundary dst)), d.pos⟩
  | _ =>
    let (src, dst, left) := d.place cur
    if d.op = 1 ∧ d.afmt = 0 then ⟨src, dst, tileBytes, d.pos⟩
    else ⟨src, dst, min left (if d.op = 2 then toBoundary dst else min (toBoundary src) (toBoundary dst)), d.pos⟩

/-- A request of a command to host memory: its function's, with the PASID of its queue (R380, R390). -/
def State.cmdHost (s : State) (c : Cmd) (addr : Nat) : HostReq :=
  s.hostReq (s.cmdQueue c.cid) (s.portOf c.part) (s.cmdFunc c) addr

/-- A transfer from the device to the host (R390). -/
def Desc.toHost (d : Desc) : Bool :=
  match d.origin with
  | .host _ toDevice => !toDevice
  | _ => false

/-- Whether a burst reads device memory. -/
def Desc.reads (d : Desc) : Bool :=
  match d.origin with
  | .host _ toDevice => !toDevice
  | _ => d.op != 2

/-- A burst of an element of a gather or scatter (R277). -/
def Desc.elemBurst (d : Desc) : Bool :=
  match d.origin with
  | .host _ _ => false
  | _ => d.kind == 2 || d.kind == 3

/-- The whole-module address and bytes of a burst's source and of its destination, on the device. -/
def State.burstFrom (s : State) (ch : Nat) (d : Desc) (b : Burst) : Option (Nat × Nat) :=
  if d.reads then (s.physAddr (s.chanPart ch) b.src).map fun p => (p, b.len) else none
def State.burstTo (s : State) (ch : Nat) (d : Desc) (b : Burst) : Option (Nat × Nat) :=
  if d.toHost then none else (s.physAddr (s.chanPart ch) b.dst).map fun p => (p, b.len)

/-! ### What a burst waits for (R259, R268, R278, R312) -/

/-- READs of a channel that wait for their data: where it goes, and its bytes. -/
def State.readsOut (s : State) (ch : Nat) : List (Nat × Nat) :=
  (s.flows.map fun (e : Nat × Flow) => (e.2.queue ++ e.2.store).filterMap fun x => match x.owner with
    | .chan b => if b.ch = ch ∧ x.pkt.ptype = 1 then some (x.dst, x.pkt.len) else none
    | _ => none).flatten

/-- Far bursts of a channel whose data has still to go on: where it goes, and its bytes. -/
def State.farOut (s : State) (ch : Nat) : List (Nat × Nat) :=
  ((s.chan ch).flight.map fun d => d.far.filterMap fun f => s.burstTo ch d f.burst).flatten

/-- Tile adds of a channel that scratchpad adders have not finished: their ranges. -/
def State.tileAddsOut (s : State) (ch : Nat) : List (Nat × Nat) :=
  (s.tiles.map fun (e : Nat × Tile) =>
    ((e.2.adds.filter fun a => a.own.ch == ch).map fun a => tileRange a.burst.dst) ++
    match e.2.adder with
    | some r => if r.own.ch = ch then [tileRange (spBase e.1 + r.base)] else []
    | none => []).flatten

/-- The near-memory ranges of adds of a source that memory-side adders have not finished. -/
def State.nearAddsOut (s : State) (src : Nat) : List (Nat × Nat) :=
  let mine := fun (b : BurstId) => (chanSrc b.ch).idx == src
  (s.hbm.map fun (e : Nat × Stack) =>
    ((e.2.elems.filter fun x => mine x.own).map fun x => (x.addr, x.bytes.length)) ++
    ((e.2.tiles.filter fun a => mine a.own).map fun a => tileRange a.burst.dst) ++
    match e.2.run with
    | some r => if mine r.own then [tileRange r.base] else []
    | none => []).flatten

/-- The sectors that n bytes at an address touch. -/
def sectorSpan (r : Nat × Nat) : Nat × Nat := (r.1 / 32 * 32, 32 * unitsOf 32 r.1 r.2)

/-- What of a channel and its source is still on its way to a range (R259, R278): writes of one channel to one byte land in
traversal order, and accesses of one source to one sector take effect in the order in which it issued them. -/
def State.onItsWay (s : State) (ch : Nat) (wr : Bool) (r : Nat × Nat) : Bool :=
  (wr && (s.readsOut ch ++ s.farOut ch ++ ((s.chan ch).retry.map fun a => (a.burst.dst, a.burst.len)) ++
    s.tileAddsOut ch).any (overlap r)) ||
  (s.nearAddsOut (chanSrc ch).idx).any fun x => overlap (sectorSpan r) (sectorSpan x)

/-- Room for the whole response of a read (R268, R312): a mover's buffer of 128 KiB takes up to 1,024 reads outstanding; a user
channel's room is not told. [log 130: DESIGN CHOICE] -/
def State.readRoom (s : State) (ch n : Nat) : Bool :=
  let chans := span (ch - (ch - 512) % 8) 8
  let out := (chans.map fun c => s.readsOut c ++ s.farOut c).flatten
  decide (ch < 512) || (decide (out.length < 1024) && decide ((out.map fun x => x.2).sum + n ≤ 131072))

/-- Whether the next burst of a descriptor has to wait. -/
def State.burstWaits (s : State) (ch : Nat) (d : Desc) : Bool :=
  let b := d.nextBurst (d.cur.getD 0)
  !d.wantsIndex &&
    (((s.burstFrom ch d b).map (s.onItsWay ch false)).getD false || ((s.burstTo ch d b).map (s.onItsWay ch true)).getD false ||
      (d.reads && !s.readRoom ch b.len))

/-! ### The two sides of a burst (R256, R330) -/

/-- What became of a burst: landed, on its way, or failed with a status at an address and direction. -/
inductive BurstEnd where
  | landed
  | onWay
  | failed (st : Status) (addr : Nat) (wr : Bool)
  deriving DecidableEq, Repr

/-- The bytes that a burst writes (R256): the fill pattern, a host's bytes, or what its source reads. -/
def State.burstData (s : State) (ch : Nat) (d : Desc) (b : Burst) : Status × List Byte × State :=
  match d.origin with
  | .host _ true => (.ok, ((d.host.drop b.idx).take b.len), s)
  | _ =>
    if d.reads then match s.physAddr (s.chanPart ch) b.src with
      | none => (.bounds, [], s)
      | some p => s.moveRead (chanSrc ch) (s.chanPart ch) d.elemBurst p b.len
    else (.ok, (List.range b.len).map fun i => BitVec.ofNat 8 (d.w 1 >>> (8 * ((b.dst + i) % 8))), s)

/-- The identity that a burst's requests carry, with the address that a fault of them names (R262, R263). -/
def burstId (ch : Nat) (d : Desc) (addr : Nat) : BurstId := ⟨ch, d.id, addr⟩

/-- An add's burst goes to the adder of its destination (R247, R282, R284); `p` is the destination's address. -/
def State.sendAdd (s : State) (ch : Nat) (d : Desc) (b : Burst) (p : Nat) (bs : List Byte) : BurstEnd × State :=
  let own := burstId ch d b.dst
  let r := s.reachAll (chanDie ch) p b.len
  if r != .ok then (.failed r b.dst true, s)
  else
    let s := (s.send (chanSrc ch) p b.len false (d.afmt != 0)).moverBytes ch b.len
    if d.afmt = 0 then
      let a : TileAdd := ⟨writeCells bs 0 [], { b with dst := p }, own⟩
      match s.region p with
      | .scratch t => (.onWay, s.setTile t { s.tile t with adds := (s.tile t).adds ++ [a] })
      | _ =>
        let st := s.stackOf (p + 0x10400)
        (.onWay, s.setStack st { s.stack st with tiles := (s.stack st).tiles ++ [a] })
    else
      let st := s.stackOf p
      (.onWay, s.setStack st { s.stack st with elems := (s.stack st).elems ++ [⟨d.afmt, p, bs, own⟩] })

/-- A packet of a remote operation waits on its flow (R329, R330); a lost die or a context in ERROR fails the burst. -/
def State.toFlow (s : State) (ch f a : Nat) (p : Packet) (own : BurstId) (dst : Nat) (wr : Bool) : BurstEnd × State :=
  if s.pathLost (chanDie ch) (flowDie f) then (.failed .dieLost own.addr wr, s)
  else if s.flowState f = 1 ∨ s.flowState f = 2 then
    (.onWay, (s.send (chanSrc ch) a p.len (!wr) false).enqueue f p (.chan own) dst)
  else (.failed .linkDown own.addr wr, s)

/-- The lines of a CXL port that n bytes of far memory touch, by number. -/
def farLines (q p n : Nat) : List Nat := (List.range (unitsOf 64 p n)).map fun i => (p - lineAddr q 0) / 64 + i

/-- A burst's bytes leave for the far tier, line by line (R292): its first hop has accepted them. -/
def State.farSend (s : State) (own : BurstId) (q p : Nat) (bs : List Byte) : State :=
  (farLines q p bs.length).foldl (fun s l =>
    let a := lineAddr q l
    s.cxlAsk q l (some ((List.finRange 64).filterMap fun (i : Fin 64) =>
      if p ≤ a + i.val then (bs[a + i.val - p]?).map fun x => (i, x) else none)) (some own)) s

/-- Bytes reach their local or remote destination (R256, R330); `p` is the destination's address. -/
def State.deliver (s : State) (ch : Nat) (d : Desc) (b : Burst) (p : Nat) (bs : List Byte) : BurstEnd × State :=
  let own := burstId ch d b.dst
  match s.region p with
  | .remote f off => match s.toFlow ch f p { s.packet f 0 bs with raddr := off } own 0 true with
    | (.onWay, s) => (.onWay, s.moverBytes ch b.len)
    | r => r
  | .far q =>
    let r := s.reachAll (chanDie ch) p b.len
    if r != .ok then (.failed r b.dst true, s)
    else (.landed, ((s.send (chanSrc ch) p b.len false d.elemBurst).farSend own q p bs).moverBytes ch b.len)
  | _ =>
    let (st, s) := s.landBytes own d.settled d.elemBurst p bs
    (if st = .ok then .landed else .failed st b.dst true, s)

/-- The bytes of a burst go to their destination: a host (R376, R390), an adder, or memory. -/
def State.burstOut (s : State) (ch : Nat) (d : Desc) (b : Burst) (bs : List Byte) : BurstEnd × State :=
  match d.origin with
  | .host cid false => match s.cmd? cid with
    | none => (.landed, s)
    | some c =>
      let port := s.portOf c.part
      (.landed, ((s.sendHost (chanSrc ch) port b.len false).emit (.hostWrite (s.cmdHost c b.dst) bs)).moverBytes ch b.len)
  | _ => match s.physAddr (s.chanPart ch) b.dst with
    | none => (.failed .bounds b.dst true, s)
    | some p => if d.op = 1 then s.sendAdd ch d b p bs else s.deliver ch d b p bs

/-- A burst that reads the far tier asks for its lines (R292); its data goes on once they have come. -/
def State.farAsk (s : State) (ch : Nat) (d : Desc) (b : Burst) (q p : Nat) : BurstEnd × State :=
  let own := burstId ch d b.src
  let r := s.reachAll (chanDie ch) p b.len
  if r != .ok then (.failed r b.src false, s)
  else
    let ls := farLines q p b.len
    let s := ls.foldl (fun s l => s.cxlAsk q l none (some own)) (s.send (chanSrc ch) p b.len true d.elemBurst)
    (.onWay, s.updBurst own fun d => { d with far := d.far ++ [⟨b, ls.map fun l => lineAddr q l / 64, .ok, []⟩] })

/-- A burst moves (R259): a READ packet or far requests where its source needs them, else its bytes go out. -/
def State.moveBurst (s : State) (ch : Nat) (d : Desc) (b : Burst) : BurstEnd × State :=
  let whole := fun (s : State) => match s.burstData ch d b with
    | (.ok, bs, s) => s.burstOut ch d b bs
    | (st, _, s) => (.failed st b.src false, s)
  match s.burstFrom ch d b with
  | none => whole s
  | some (a, _) => match s.region a with
    | .remote f off => match s.physAddr (s.chanPart ch) b.dst with
      | none => (.failed .bounds b.dst true, s)
      | some p => s.toFlow ch f a { s.packet f 1 [] with raddr := off, len := b.len } (burstId ch d b.src) p false
    | .far q => s.farAsk ch d b q a
    | _ => whole s

/-! ### The next burst of a channel (R259, R268) -/

/-- Bursts of a descriptor wait behind an earlier one in flight with BARRIER set (R259). [log 50: DEDUCED] -/
def State.behindBarrier (s : State) (ch k : Nat) : Bool :=
  ((s.chan ch).flight.take k).any fun e => e.barrier && !(s.halted ch && e.isRing && !e.stop)

/-- The descriptor whose next burst starts. [log 27: DESIGN CHOICE] -/
def State.burstTurn (s : State) (ch : Nat) : Option Desc :=
  ((s.chan ch).flight.zipIdx.find? fun (p : Desc × Nat) =>
    p.1.phase == .moving && p.1.unstarted && p.1.fail.isNone && s.mayMove ch p.1 && !s.behindBarrier ch p.2).map fun p => p.1

/-- A far burst of a descriptor whose lines have all come. -/
def Desc.farReady (d : Desc) : Option FarBurst := d.far.find? fun f => f.lines.isEmpty && f.status == .ok

/-- What a channel does at its next burst boundary: data of the far tier that has come goes on, else the next burst starts
unless it has to wait. -/
def State.chanWork (s : State) (ch : Nat) : Option (Desc × Option FarBurst) :=
  match (s.chan ch).flight.find? fun d => d.farReady.isSome with
  | some d => some (d, d.farReady)
  | none => match s.burstTurn ch with
    | some d => if s.burstWaits ch d then none else some (d, none)
    | none => none

/-- The channel of a mover that is served next: of those with work, the one after the last served, in round robin (R268). -/
def State.moverTurn (s : State) (m : Nat) : Option Nat :=
  let last := tget (fun _ => 0) s.mvTurn m
  let l := (List.range 8).filter fun k => (s.chanWork (512 + 8 * m + k)).isSome
  (firstSome (l.find? fun k => decide (last ≤ k)) l.head?).map fun k => 512 + 8 * m + k

/-- A mover has served a channel. -/
def State.moverServed (s : State) (ch : Nat) : State :=
  if ch < 512 then s else { s with mvTurn := tset (fun _ => 0) s.mvTurn (moverOf ch) ((ch - 512) % 8 + 1) }

/-- What became of a burst reaches its descriptor; a bus error halts as R263 and R264 state, any other error waits for its
response row (R262). [log 43: DEDUCED] [log 59: DEDUCED] -/
def State.burstEnded (s : State) (ch : Nat) (d : Desc) (r : BurstEnd) : State :=
  match r with
  | .landed => s
  | .onWay => s.updBurst (burstId ch d 0) fun d => { d with openB := d.openB + 1 }
  | .failed st addr wr => s.burstError (burstId ch d addr) st wr

/-- The data of a far burst goes on to its destination. -/
def State.farGoes (s : State) (ch : Nat) (d : Desc) (f : FarBurst) : State :=
  let s := s.updBurst (burstId ch d 0) fun d => { d with far := d.far.erase f, openB := d.openB - 1 }
  match s.physAddr (s.chanPart ch) f.burst.src with
  | none => s
  | some p =>
    let bs := (List.range f.burst.len).map fun i => (tget (fun _ => []) f.data ((p + i) / 64)).getD ((p + i) % 64) 0
    let (r, s) := s.burstOut ch d f.burst bs
    s.burstEnded ch d r

/-- The next burst of a descriptor starts: its bytes count as moved, and the index of its element is done with the element's
last burst. -/
def State.burstStarts (s : State) (ch : Nat) (d : Desc) : State :=
  let b := d.nextBurst (d.cur.getD 0)
  let pos := d.pos + b.len
  let s := s.updBurst (burstId ch d 0) fun d => { d with pos := pos, cur := if pos % d.esz = 0 then none else d.cur }
  let (r, s) := s.moveBurst ch d b
  s.burstEnded ch d r

/-- A channel does its next work: for an indexed element it reads the index first, once (R255). -/
def State.chanMoves (s : State) (ch : Nat) (d : Desc) (far : Option FarBurst) : State :=
  match far with
  | some f => s.farGoes ch d f
  | none =>
    if !d.wantsIndex then s.burstStarts ch d
    else match s.indexOf ch d (d.pos / d.esz) with
      | (.ok, off, s) =>
        let d := { d with cur := some off }
        let s := s.updBurst (burstId ch d 0) fun e => { e with cur := some off }
        if s.burstWaits ch d then s else s.burstStarts ch d
      | (st, _, s) => s.burstError (burstId ch d (d.w 3 % 2 ^ 52 + d.pos / d.esz * d.idxSize)) st false

/-- DMA_BURST (R259, R268): the next burst of a channel, on a mover at the channel's turn. [log 27: DESIGN CHOICE]
[log 130: DESIGN CHOICE] -/
def execDmaBurst (ch : ChanId) (s : State) : Host.Outcome State Fault Refusal :=
  .next (if 512 ≤ ch.val ∧ s.moverTurn (moverOf ch) ≠ some ch.val then s
    else match s.chanWork ch with
      | none => s
      | some (d, far) => (s.moverServed ch).chanMoves ch d far)

/-- RETRY_RESEND (R248, R313): the oldest packet that a channel sends again: a tile add goes back to its adder, a write
into instruction memory lands once no pin covers it. -/
def execRetryResend (ch : ChanId) (s : State) : Host.Outcome State Fault Refusal :=
  let c := s.chan ch
  .next (match c.retry with
    | [] => s
    | a :: rest =>
      let s := s.setChan ch { c with retry := rest }
      match s.region a.burst.dst with
      | .scratch t => s.setTile t { s.tile t with adds := (s.tile t).adds ++ [a] }
      | _ => match s.pinWaits (s.chanPart ch) a.burst.dst a.burst.len with
        | some t => s.turnBack a.own t a
        | none =>
          let (st, s) := s.landWhole a.own false a.burst.dst ((List.range a.burst.len).map fun i => tget memDefault a.src i)
          s.burstAnswered a.own st true)

/-! ### Completion (R250, R252, R258, R260, R261, R267) -/

/-- Word 7 (R252). -/
def Desc.statusWord (d : Desc) : Nat :=
  d.status.code + (if d.dropped then 256 + 65536 * d.reason.code else 0) + 2 ^ 24 * d.residue

/-- Whether a descriptor's bursts have all started, or none starts any more, and none is on its way. -/
def Desc.settledDown (d : Desc) : Bool :=
  match d.phase with
  | .fetched => d.stop
  | .done => true
  | .moving => d.fail.isNone && d.openB == 0 && (d.stop || match d.origin with
    | .host _ _ => decide (d.w 3 ≤ d.pos)
    | _ => decide (d.total ≤ d.pos))

/-- Whether a halt holds the ring's entries: those behind the one that failed wait for RESUME (R263, R265); a halt on a
fetch does not hold entries fetched before it. [log 42: DEDUCED] -/
def State.ringHeld (s : State) (ch : Nat) : Bool :=
  let c := s.chan ch
  s.halted ch && (c.wbFail || !flag (s.reg (chanReg ch 0x18)) 11 && !c.flight.any fun e => e.isRing && e.stop)

/-- Whether far-tier writes of a channel's descriptors that `mine` names have not completed (R260). -/
def State.farWrites (s : State) (ch : Nat) (mine : Nat → Bool) : Bool :=
  s.cxl.any fun (e : Nat × List CxlReq) => e.2.any fun r => r.wr.isSome && match r.own with
    | some b => b.ch == ch && mine b.desc
    | none => false

/-- Whether the descriptor at place k of a channel completes (R250, R260, R265). [log 44: DEDUCED] -/
def State.completable (s : State) (ch : Nat) (p : Desc × Nat) : Bool :=
  let c := s.chan ch
  let before := c.flight.take p.2
  p.1.settledDown &&
    (!p.1.isRing || (!before.any Desc.isRing && !s.ringHeld ch)) &&
    (!p.1.barrier || (p.1.psns.isEmpty && c.oldPsns.isEmpty && (before.all fun d => d.settledDown && d.psns.isEmpty) &&
      !s.farWrites ch fun id => !((c.flight.drop (p.2 + 1)).any fun d => d.id == id)))

/-- Launches whose preload a write into instruction memory undid are preloaded again, first (R185). -/
def State.preloadAgain (s : State) (x : Nat × Bool × Nat) : State :=
  let t := s.tile x.1
  let b := t.bank x.2.1
  if b.phase = .loading ∧ b.cid = x.2.2 then
    s.setTile x.1 { t.setBank x.2.1 Bank.reset with launches := x.2.2 :: t.launches, predBad := b.predBad || t.predBad }
  else s

/-- A descriptor leaves its channel: its unacknowledged packets are remembered for a later barrier, and launches are
preloaded again. -/
def State.leaveChan (s : State) (ch k : Nat) (d : Desc) : State :=
  let c := s.chan ch
  d.again.foldl State.preloadAgain (s.setChan ch { c with
    flight := c.flight.eraseIdx k, oldPsns := c.oldPsns ++ d.psns })

/-- A dropped descriptor is counted and recorded (R258, R267). [log 49: DEDUCED] -/
def State.recordDrop (s : State) (ch : Nat) (d : Desc) : State :=
  if !d.dropped then s
  else match d.origin with
    | .ring i => s.chanIgnored ch i.toNat d.reason false
    | _ => s.chanIgnored ch 0xFFFF d.reason true

/-- A ring descriptor's signal (R251, R260). [log 60: DEDUCED] -/
def State.descSignal (s : State) (ch : Nat) (d : Desc) : State :=
  if d.sigEn && d.status == .ok && !d.dropped then
    if ch < 512 then s.incEv (ch / 4) (d.sigIdx % 16)
    else match s.physCtr (s.chanPart ch) d.sigIdx with
      | some i => s.ctrAdd i 1
      | none => s
  else s

/-- MV.POST commands hear of a completed ring descriptor (R390): those whose PROD value CONS has reached complete, and
those whose abort stopped the ring. -/
def State.postsHear (s : State) (ch : Nat) (d : Desc) : State :=
  let c := s.chan ch
  let posts := c.posts.map fun (p : Nat × BitVec 16 × Status) => (p.1, p.2.1, p.2.2.merge d.status)
  let aborted := fun (cid : Nat) => d.byReg && match s.cmd? cid with
    | some k => k.abortReq
    | none => true
  let past := fun (p : Nat × BitVec 16 × Status) => p.2.1 == s.cons ch || aborted p.1
  (posts.filter past).foldl (fun s (p : Nat × BitVec 16 × Status) => s.finish p.1 p.2.2)
    (s.setChan ch { c with posts := posts.filter fun p => !past p })

/-- A ring descriptor completes: word 7, then OWN = 0, the signal, CONS, and for an abort RUN = 0 and the interrupt.
[log 57: DEDUCED] -/
def State.completeRing (s : State) (ch k : Nat) (d : Desc) (i : BitVec 16) (bus : Bool) : State :=
  let a := s.entryAddr ch i
  let (st, s) : Status × State := match s.memAt (s.chanPart ch) a 64 with
    | none => (.bounds, s)
    | some p =>
      if bus then (.bus, s)
      else
        let (st, s) := s.memWrite (chanSrc ch) (p + 56) (natLe 8 d.statusWord)
        if st = .ok then s.memWrite (chanSrc ch) p (natLe 8 (d.w 0 / 2 * 2)) else (st, s)
  if st != .ok then (s.setChan ch { s.chan ch with wbFail := true }).fetchFault ch st a true
  else
    let s := ((s.leaveChan ch k d).recordDrop ch d).descSignal ch d
    let s := s.setChan ch { s.chan ch with wbFail := false }
    let s := (s.count64 (chanReg ch 0x28) 1).setReg (chanReg ch 0x10) ((s.cons ch + 1).setWidth 64)
    let s := if d.byReg then (s.putBit (chanReg ch 0x14) 0 false).chanInt ch else s
    s.postsHear ch d

/-- A DMA.XFER completes (R267): word 7 is written, and the command retires with the descriptor's status.
[log 56: DEDUCED] -/
def State.completeXfer (s : State) (ch k : Nat) (d : Desc) (off : Nat) (bus : Bool) : State :=
  let t := ch / 4
  let s := if bus then s else s.spWrite t (off + 56) (natLe 8 d.statusWord)
  let s' := ((s.leaveChan ch k d).recordDrop ch d).count64 (chanReg ch 0x28) 1
  match s.xferCmd ch d with
  | none => s'
  | some c =>
    let x := s'.tile t
    (s'.setTile t { x with dmFlight := x.dmFlight.filter fun e => e.seq != c.seq }).retire t c
      (if bus then d.status.merge .bus else d.status)
      (if !d.dropped && d.reason == .bounds then .imem else .dm)

/-- DESCRIPTOR_COMPLETE (R250, R260): the first descriptor of a channel that can complete does. `bus` is a bus error of
its write-back. -/
def execDescriptorComplete (ch : ChanId) (bus : Bool) (s : State) : Host.Outcome State Fault Refusal :=
  .next (if !s.dieOn (chanDie ch) then s
    else match (s.chan ch).flight.zipIdx.find? fun (p : Desc × Nat) => s.completable ch p with
    | none => s
    | some (d, k) => match d.origin with
      | .ring i => s.completeRing ch k d i bus
      | .xfer _ off _ _ => s.completeXfer ch k d off bus
      | .host cid _ => (s.leaveChan ch k d).finish cid d.status)

end Sys2Proof.Machine
end

