-- ==== Sys2Proof/Machine/Engines.lean ====
section
/-! DEFINITION. Queued commands of the movers and of the network side of the collective engines (R390, R391). -/
namespace Sys2Proof.Machine

/-- The channel that a command of a mover names. -/
def Cmd.chan (c : Cmd) : Nat := 512 + 8 * (c.engine - 128) + byteAt c.bytes 24 % 8

/-- HALT_STATUS of a channel. -/
def State.haltStatus (s : State) (ch : Nat) : Status := Status.ofCode (field (s.reg (chanReg ch 0x18)) 9 2)

/-- MV_POST (R390): PROD and RUN of the channel are written; the command completes when CONS reaches the value.
[log 58: DEDUCED] -/
def execMvPost (cid : Nat) (s : State) : Host.Outcome State Fault Refusal :=
  .next (match s.passed cid 0x20 with
    | none => s
    | some c =>
      let s := s.taken c
      let ch := c.chan
      let v := BitVec.ofNat 16 (countArg c.bytes)
      if s.dieLost (engineDie c.engine) then s.finish cid .dieLost
      else if s.ringLen ch < (v - s.cons ch).toNat then s.dropCmd c .bounds
      else if s.halted ch then s.finish cid (s.haltStatus ch)
      else
        let s := (s.writeProd ch v).writeRun ch true
        if s.cons ch = v then s.finish cid .ok
        else (s.startCmd c).setChan ch { s.chan ch with posts := (s.chan ch).posts ++ [(cid, v, .ok)] })

/-- MV_HOST (R390): one transfer between host memory and device memory, which the channel takes ahead of its next ring
entry; an error on the host side stops the mover. `host` is what the host answers: for a transfer to the device, its
bytes. [log 57: DEDUCED] -/
def execMvHost (cid : Nat) (host : HostReply) (s : State) : Host.Outcome State Fault Refusal :=
  .next (match s.passed cid 0x21 with
    | none => s
    | some c =>
      let ch := c.chan
      let haddr := bytesN c.bytes 39 32
      let daddr := addrAt c.bytes 40
      let len := bytesN c.bytes 52 48
      let toDevice := !bitN (byteAt c.bytes 24) 3
      let s := s.taken c
      if s.dieLost (engineDie c.engine) then s.finish cid .dieLost
      else if len = 0 then s.finish cid .ok
      else if s.stopped ch || decide (8 ≤ (s.chan ch).flight.length) then s
      else if !s.hostReach (s.portOf c.part) (s.cmdFunc c) then
        (s.finish cid .bus).moverError (moverOf ch) haddr (!toDevice)
      else
        let s := if toDevice then
            (s.sendHost (chanSrc ch) (s.portOf c.part) len true).emit (.hostRead (s.cmdHost c haddr) len)
          else s
        match host with
        | .busError => (s.finish cid .bus).moverError (moverOf ch) haddr (!toDevice)
        | .data bs =>
          let ws := (if toDevice then [0, haddr, daddr, len] else [0, daddr, haddr, len]).map (BitVec.ofNat 64)
          let k := s.chan ch
          let d := { freshDesc k.nextId (.host cid toDevice) ws with
            phase := .moving, host := if toDevice then (bs ++ List.replicate (len - bs.length) 0).take len else [] }
          (s.startCmd c).setChan ch { k with flight := insertXfer d k.flight, nextId := k.nextId + 1 })

/-- A packet of a NET command waits on its flow, which must be OPEN (R329, R391); the source is read first. -/
def State.netSend (s : State) (c : Cmd) (f : Option Nat) (n : Nat) (mk : Nat → List Byte → Packet) (ret : Nat) : State :=
  match f with
  | none => (s.taken c).dropCmd c .bounds
  | some i =>
    let die := engineDie c.engine
    let s := s.taken c
    if s.dieLost die then s.finish c.cid .dieLost
    else if s.flowState i ≠ 1 then s.finish c.cid .linkDown
    else match s.memAt c.part (addrAt c.bytes 32) n with
      | none => s.dropCmd c .bounds
      | some a =>
        let (st, s) := s.memRead (engineSrc c.engine) a n
        if st != .ok then s.finish c.cid st
        else (s.startCmd c).enqueue i (mk i (s.bytes a n)) (.cmd c.cid) ret

/-- NET_ATOMIC (R391). -/
def execNetAtomic (cid : Nat) (s : State) : Host.Outcome State Fault Refusal :=
  .next (match s.passed cid 0x31 with
    | none => s
    | some c =>
      let dst := addrAt c.bytes 40
      let fetch := bitN (byteAt c.bytes 24) 3
      let n := countArg c.bytes % 8192
      let f := match aperture dst with
        | some w => s.engineFlow c.engine c.part w
        | none => none
      let ret := if fetch then s.memAt c.part (addrAt c.bytes 48) n else some 0
      match ret with
      | none => (s.taken c).dropCmd c .bounds
      | some r => s.netSend c f n (fun i bs => { s.packet i 3 bs with
          raddr := dst % 2 ^ 33, afmt := byteAt c.bytes 24 % 8, fetch := fetch }) r)

/-- NET_SEND (R391). -/
def execNetSend (cid : Nat) (s : State) : Host.Outcome State Fault Refusal :=
  .next (match s.passed cid 0x32 with
    | none => s
    | some c => s.netSend c (s.engineFlow c.engine c.part (bytesN c.bytes 43 40 % 2 ^ 18)) (countArg c.bytes % 8192)
        (fun i bs => s.packet i 5 bs) 0)

end Sys2Proof.Machine
end

