-- ==== Sys2Proof/Machine/Stencil.lean ====
section
/-! DEFINITION. Stencil tables: records, the built-in pairs and exact evaluation (R227 to R234, R476). -/
namespace Sys2Proof.Machine

/-! ### Real functions in fixed point

A fixed-point number is an integer count of 2^−512. R476 rounds each coefficient once from the exact real value: 512
fraction bits lie so far below FP32's 24 that the rounding is that of the exact value. -/

/-- 1.0 in fixed point. -/
def fxOne : Int := 2 ^ 512

/-- A product. -/
def fxMul (a b : Int) : Int := a * b / fxOne

/-- A quotient. -/
def fxDiv (a b : Int) : Int := a * fxOne / b

/-- n steps of an alternating or plain series: `term` is multiplied by `x` and by num k / den k at step k, and
`sum` adds term / odd when `odd k` is above 1. -/
def fxSeries : Nat → Nat → Int → Int → Int → (Nat → Int) → (Nat → Int) → Int
  | 0, _, _, _, sum, _, _ => sum
  | fuel + 1, k, x, term, sum, den, odd =>
    let term' := fxMul term x / den k
    fxSeries fuel (k + 1) x term' (sum + term' / odd k) den odd

/-- e^y for |y| < 1/8, by its power series. -/
def fxExpSmall (y : Int) : Int := fxSeries 60 1 y fxOne fxOne (fun k => Int.ofNat k) (fun _ => 1)

/-- A number squared n times. -/
def fxSquares : Nat → Int → Int
  | 0, x => x
  | n + 1, x => fxSquares n (fxMul x x)

/-- e^x for |x| ≤ 64. -/
def fxExp (x : Int) : Int := fxSquares 12 (fxExpSmall (x / 4096))

/-- ln(1 + y) for 0 ≤ y ≤ 1, as 2 atanh(y / (2 + y)). -/
def fxLn1p (y : Int) : Int :=
  let z := fxDiv y (2 * fxOne + y)
  2 * fxSeries 170 1 (fxMul z z) z z (fun _ => 1) (fun k => 2 * Int.ofNat k + 1)

/-- atan(1/n). -/
def fxAtanInv (n : Nat) : Int :=
  let z := fxOne / Int.ofNat n
  fxSeries 120 1 (-(fxMul z z)) z z (fun _ => 1) (fun k => 2 * Int.ofNat k + 1)

/-- π, by Machin's formula. -/
def fxPi : Int := 16 * fxAtanInv 5 - 4 * fxAtanInv 239

/-- Newton's iteration for 1/√a. -/
def fxRsqrt : Nat → Int → Int → Int
  | 0, _, y => y
  | n + 1, a, y => fxRsqrt n a (fxMul y (3 * fxOne - fxMul a (fxMul y y)) / 2)

/-- 1/√(2π). -/
def fxRsqrt2Pi : Int := fxRsqrt 10 (2 * fxPi) (3989 * fxOne / 10000)

/-- The standard normal density. -/
def fxDensity (x : Int) : Int := fxMul (fxExp (-(fxMul x x / 2))) fxRsqrt2Pi

/-- The standard normal distribution function, for |x| ≤ 8. -/
def fxPhi (x : Int) : Int :=
  let s := fxSeries 330 1 (-(fxMul x x / 2)) fxOne fxOne (fun k => Int.ofNat k) (fun k => 2 * Int.ofNat k + 1)
  fxOne / 2 + fxMul (fxMul x s) fxRsqrt2Pi

/-- 1 / (1 + e^−x). -/
def fxSigmoid (x : Int) : Int := fxDiv fxOne (fxOne + fxExp (-x))

/-- tanh x. -/
def fxTanh (x : Int) : Int := fxOne - fxDiv (2 * fxOne) (fxExp (2 * x) + fxOne)

/-- The true function of a built-in pair, or its exact derivative (R476); `left` asks for the limit from below. -/
def builtinFn (code : Nat) (deriv left : Bool) (x : Int) : Int :=
  match code, deriv with
  | 1, false => max x 0
  | 1, true => if x < 0 ∨ (left ∧ x = 0) then 0 else fxOne
  | 2, false => fxMul x (fxPhi x)
  | 2, true => fxPhi x + fxMul x (fxDensity x)
  | 3, false => fxMul x (fxSigmoid x)
  | 3, true => let g := fxSigmoid x; g + fxMul x (fxMul g (fxOne - g))
  | 4, false => fxSigmoid x
  | 4, true => let g := fxSigmoid x; fxMul g (fxOne - g)
  | 5, false => fxTanh x
  | 5, true => let g := fxTanh x; fxOne - fxMul g g
  | 6, _ => fxExp x
  | _, false => max x 0 + fxLn1p (fxExp (-(Int.ofNat x.natAbs)))
  | _, true => fxSigmoid x

/-- A fixed-point value rounded once to FP32 under RNE; what lies below every value of R476 is an exact 0.
[log 41: DEDUCED] -/
def fxFp32 (v : Int) : BitVec 32 := if v.natAbs < 2 ^ 292 then 0 else toFp32 .rne (.ofInt v (-512))

/-- Domain start in sixteenths, and WEXP, of a built-in pair (R476). -/
def builtinDomain (code : Nat) : Int × Int :=
  match code with
  | 1 => (-16, 1) | 2 => (-128, 4) | 5 => (0, 3) | 6 => (-255, 4) | _ => (-256, 5)

/-- C0, C1, C2 of segment i of a built-in part (R476). [log 41: DEDUCED] -/
def builtinCoef (code : Nat) (deriv : Bool) (i : Nat) : List (BitVec 32) :=
  let (lo, w) := builtinDomain code
  let h := fxOne * 2 ^ w.toNat / 256
  let x0 := lo * (fxOne / 16) + Int.ofNat i * h
  let g0 := builtinFn code deriv false x0
  let gm := builtinFn code deriv false (x0 + h / 2)
  let g1 := builtinFn code deriv true (x0 + h)
  [fxFp32 g0, fxFp32 (-3 * g0 + 4 * gm - g1), fxFp32 (2 * g0 - 4 * gm + 2 * g1)]

/-! ### Parts and evaluation (R232) -/

/-- A part of a table: its domain, symmetry (0 none, 1 odd, 2 even), and for below and above the outside mode with
its affine coefficients. -/
structure TablePart where
  lo    : XReal
  wexp  : Int
  sym   : Nat
  below : Nat × BitVec 32 × BitVec 32
  above : Nat × BitVec 32 × BitVec 32
  deriving DecidableEq, Repr

/-- An outside value (R232). -/
def outsideVal (m : Nat × BitVec 32 × BitVec 32) (u : XReal) : XReal :=
  if m.1 = 1 then .inf false
  else if m.1 = 2 then .nan
  else
    let a := fp32 m.2.1
    let b := fp32 m.2.2
    match u with
    | .inf n => if a.isZero then b else .inf (a.neg? != n)
    | _ => (a.mul u).add b

/-- floor of a value that is not negative, in units of 2^e. -/
def floorUnits (x : XReal) (e : Int) : Nat :=
  match x with
  | .fin _ m k => if e ≤ k then m * 2 ^ (k - e).toNat else m / 2 ^ (e - k).toNat
  | _ => 0

/-- The exact value of a part at an FP32 argument (R232); `coef` gives a segment's coefficients. -/
def evalPart (p : TablePart) (coef : Nat → List (BitVec 32)) (x : BitVec 32) : XReal :=
  match fp32 x with
  | .nan => .nan
  | v =>
    let flip := p.sym != 0 && x.toNat.testBit 31
    let u := if flip then v.negate else v
    let hi := p.lo.add (.fin false 1 p.wexp)
    let r :=
      if u.lt p.lo then outsideVal p.below u
      else if !u.lt hi then outsideVal p.above u
      else
        let d := u.add p.lo.negate
        let i := floorUnits d (p.wexp - 8)
        let t : XReal := match d.add (XReal.ofInt (-(Int.ofNat i)) (p.wexp - 8)) with
          | .fin n m e => .fin n m (e - (p.wexp - 8))
          | y => y
        match coef i with
        | [c0, c1, c2] => ((fp32 c0).add ((fp32 c1).mul t)).add (((fp32 c2).mul t).mul t)
        | _ => .nan
    if flip && p.sym == 1 then r.negate else r

/-- Symmetry of the derivative part: odd and even exchanged (R233). -/
def derivSym (sym : Nat) : Nat :=
  match sym with
  | 1 => 2 | 2 => 1 | _ => 0

/-- The affine outside entries of R476: x, 0, 1, or the fixed NaN. -/
def outX : Nat × BitVec 32 × BitVec 32 := (0, 0x3F800000, 0)
/-- The value 0. -/
def out0 : Nat × BitVec 32 × BitVec 32 := (0, 0, 0)
/-- The value 1. -/
def out1 : Nat × BitVec 32 × BitVec 32 := (0, 0, 0x3F800000)
/-- NaN. -/
def outNan : Nat × BitVec 32 × BitVec 32 := (2, 0, 0)

/-- A built-in part (R234, R476). -/
def builtinPart (code : Nat) (deriv : Bool) : TablePart :=
  let (lo, w) := builtinDomain code
  let sym := if code = 5 then 1 else 0
  let above := match code, deriv with
    | 4, false => out1 | 4, true => out0
    | 5, false => out1 | 5, true => out0
    | 6, _ => outNan
    | _, false => outX
    | _, true => out1
  { lo := .ofInt lo (-4), wexp := w, sym := if deriv then derivSym sym else sym, below := out0, above := above }

/-! ### User records (R228 to R230) -/

/-- An FP32 field of a record. -/
def rec32 (bs : List Byte) (o : Nat) : BitVec 32 := BitVec.ofNat 32 (bytesN bs (o + 3) o)

/-- HAS_DERIV. -/
def recHasDeriv (bs : List Byte) : Bool := bitN (byteAt bs 5) 2

/-- A record's length by its head (R228). -/
def recLength (bs : List Byte) : Nat := if recHasDeriv bs then 6208 else 3136

/-- Validity of a record (R229). -/
def recValid (bs : List Byte) : Bool :=
  let sym := byteAt bs 5 % 4
  let w := signed 8 (byteAt bs 4)
  let m := byteAt bs 6
  let fields := (span 2 8).map (fun i => rec32 bs (4 * i)) ++
    (List.range ((recLength bs - 64) / 4)).map (fun i => rec32 bs (64 + 4 * i))
  sym != 3 && byteAt bs 5 < 8 && byteAt bs 7 == 0 && bytesN bs 63 40 == 0 &&
  bitsN m 1 0 != 3 && bitsN m 3 2 != 3 && bitsN m 5 4 != 3 && bitsN m 7 6 != 3 &&
  (fp32 (rec32 bs 0)).isFin && (fields.all fun c => (fp32 c).isFin) &&
  decide (-24 ≤ w) && decide (w ≤ 24) &&
  (match fp32 (rec32 bs 0) with
    | .fin _ n e => if w - 8 ≤ e then true else n % 2 ^ (w - 8 - e).toNat == 0
    | _ => false) &&
  (sym == 0 || ((fp32 (rec32 bs 0)).isZero && bitsN m 1 0 == 0 && bitsN m 5 4 == 0 && bytesN bs 15 8 == 0 &&
    bytesN bs 31 24 == 0)) &&
  (recHasDeriv bs || (bitsN m 7 4 == 0 && bytesN bs 39 24 == 0))

/-- A part of a user record. -/
def recPart (bs : List Byte) (deriv : Bool) : TablePart :=
  let sym := byteAt bs 5 % 4
  let m := byteAt bs 6
  let o := if deriv then 24 else 8
  { lo := fp32 (rec32 bs 0), wexp := signed 8 (byteAt bs 4), sym := if deriv then derivSym sym else sym
    below := (if deriv then bitsN m 5 4 else bitsN m 1 0, rec32 bs o, rec32 bs (o + 4))
    above := (if deriv then bitsN m 7 6 else bitsN m 3 2, rec32 bs (o + 8), rec32 bs (o + 12)) }

/-- Coefficients of segment i of a user record's part. -/
def recCoef (bs : List Byte) (deriv : Bool) (i : Nat) : List (BitVec 32) :=
  let o := (if deriv then 3136 else 64) + 12 * i
  [rec32 bs o, rec32 bs (o + 4), rec32 bs (o + 8)]

/-- A tile's user slot; an empty slot is the empty record (R230). -/
def Tile.slotRec (x : Tile) (n : Nat) : List Byte := tget (fun _ => []) x.slots n

/-- The exact value of the function, or the derivative part, that a STENCIL code names in a tile, at an FP32 argument
(R227, R230, R232). -/
def Tile.stencil (x : Tile) (code : Nat) (deriv : Bool) (a : BitVec 32) : XReal :=
  if code < 128 then evalPart (builtinPart code deriv) (builtinCoef code deriv) a
  else
    let bs := x.slotRec (code - 128)
    if bs.isEmpty || (deriv && !recHasDeriv bs) then .nan
    else evalPart (recPart bs deriv) (recCoef bs deriv) a

/-- y × w with the special cases of R152, which VOP.DSTEN shares (R219): y the exact value, w the derivative. -/
def derivProduct (y w : XReal) : XReal :=
  match y, w with
  | .nan, _ => .nan
  | _, .nan => .nan
  | .fin a m e, .fin b n f => if m = 0 ∨ n = 0 then .zero else .fin (a != b) (m * n) (e + f)
  | a, b => a.mul b

end Sys2Proof.Machine
end

