-- ==== Sys2Proof/Machine/MatrixPlan.lean ====
section
/-! DEFINITION. A matrix command's plan: orientation, grid, sweeps, operand elements, extents, anchors and terms
(R84 to R101, R115 to R126, R131, R144, R145). -/
namespace Sys2Proof.Machine

/-! ### Operands as oriented (R117, R123, R144) -/

/-- An operand: its format and layout, whether stored rows run along the reduction (TRANS), and its outer count
(rows of A, columns of B) and reduction length. -/
structure Opnd where
  fmt : Nat
  scaled : Bool
  depth : Nat
  trans : Bool
  base : Nat
  stride : Nat
  sBase : Nat
  sStride : Nat
  outer : Nat
  k : Nat
  deriving DecidableEq, Repr

/-- A, the stationary operand (R115, R144). -/
def opndA (op : MOp) (p : MPlate) : Opnd :=
  { fmt := p.fmtA, scaled := carriesScale p.fmtA p.scaledA, depth := p.depth
    trans := match op with | .dx => false | .dw => true | _ => p.transA
    base := p.aBase, stride := p.aStride, sBase := p.saBase, sStride := p.saStride, outer := p.m, k := p.k }

/-- B, the streamed operand (R115, R144). -/
def opndB (op : MOp) (p : MPlate) : Opnd :=
  { fmt := p.fmtB, scaled := carriesScale p.fmtB p.scaledB, depth := p.depth
    trans := match op with | .dx => true | .dw => true | _ => p.transB
    base := p.bBase, stride := p.bStride, sBase := p.sbBase, sStride := p.sbStride, outer := p.n, k := p.k }

/-- Whether an operand is in W slices. -/
def Opnd.w (o : Opnd) : Bool := o.fmt == 10

/-- The stored row of element (outer, k), and its position in that row (R117). -/
def Opnd.cell (o : Opnd) (i k : Nat) : Nat × Nat := if o.trans then (k, i) else (i, k)

/-- Bytes of a W record (R81). -/
def recBytes (d : Nat) : Nat := 16 + 32 * d

/-- The offset of the W record that holds element (outer, k). -/
def Opnd.recAt (o : Opnd) (i k : Nat) : Nat :=
  let (r, q) := o.cell i k
  o.base + r * o.stride + q / 32 * recBytes o.depth

/-- The k-step length L (R86). -/
def stepLen (a b : Nat) : Nat :=
  if a = 2 ∨ a = 4 then (if b = 5 then 256 else if b = 2 ∨ b = 4 then 128 else 64) else 64

/-! ### The sequence of sweeps (R116, R120) -/

/-- Slice pairs of a product in reference order (R78, R101). -/
def slicePairs (p : MPlate) : List (Nat × Nat) :=
  if p.fmtA = 10 then [(1, 1), (1, 2), (2, 1), (1, 3), (2, 2), (3, 1)].filter fun x => decide (x.1 + x.2 ≤ p.depth + 1)
  else [(1, 1)]

/-- Row blocks, column groups and k-steps of a command. -/
def rowBlocks (p : MPlate) : Nat := ceilDiv p.m 64
def colGroups (p : MPlate) : Nat := ceilDiv p.n 128
def kSteps (p : MPlate) : Nat := ceilDiv p.k (stepLen p.fmtA p.fmtB)
/-- Groups of a command: one per row block and column group. -/
def groupCount (p : MPlate) : Nat := rowBlocks p * colGroups p
/-- Sweeps per group. -/
def groupSweeps (p : MPlate) : Nat := kSteps p * (slicePairs p).length
/-- Sweeps of a command. -/
def sweepCount (p : MPlate) : Nat := groupCount p * groupSweeps p

/-- A sweep: its group (numbered in order), row block, column group, k-step and slice pair. -/
structure Sweep where
  grp : Nat
  p : Nat
  g : Nat
  ks : Nat
  i : Nat
  j : Nat
  deriving DecidableEq, Repr

/-- Sweep number x of a command. -/
def sweepAt (p : MPlate) (x : Nat) : Sweep :=
  let grp := x / groupSweeps p
  let w := x % groupSweeps p
  let pr := (slicePairs p).getD (w % (slicePairs p).length) (1, 1)
  ⟨grp, grp / colGroups p, grp % colGroups p, w / (slicePairs p).length, pr.1, pr.2⟩

/-- Columns of a group's sweeps. -/
def sweepCols (p : MPlate) (g : Nat) : Nat := min 128 (p.n - 128 * g)

/-- Whether two sweeps use the same stationary block (R120). -/
def sameBlock (a b : Sweep) : Bool := a.p == b.p && a.ks == b.ks && a.i == b.i

/-- The first sweep from x on that loads a stationary block of its own. -/
def nextBlock (p : MPlate) : Nat → Nat → Option Nat
  | 0, _ => none
  | fuel + 1, x =>
    if sweepCount p ≤ x then none
    else if 0 < x ∧ sameBlock (sweepAt p x) (sweepAt p (x - 1)) then nextBlock p fuel (x + 1) else some x

/-- The valid reduction positions of a k-step: first and count. -/
def kRange (p : MPlate) (ks : Nat) : Nat × Nat :=
  let l := stepLen p.fmtA p.fmtB
  (ks * l, min l (p.k - ks * l))

/-! ### Extents (R118, R246) -/

/-- Whether n bytes from an offset lie inside the scratchpad. -/
def fits (e : Nat × Nat) : Bool := decide (e.1 + e.2 ≤ spSize)

/-- The last stored row's bytes: its offset and length; every earlier row lies below. -/
def lastRow (base stride rows len : Nat) : Nat × Nat := (base + (rows - 1) * stride, len)

/-- Extents of an operand. -/
def Opnd.extents (o : Opnd) : List (Nat × Nat) :=
  if o.outer = 0 ∨ o.k = 0 then [] else
  let (rows, len) := if o.trans then (o.k, o.outer) else (o.outer, o.k)
  lastRow o.base o.stride rows (if o.w then ceilDiv len 32 * recBytes o.depth else elemBytes (fmtBits o.fmt) len) ::
    (if o.scaled then [lastRow o.sBase o.sStride rows (ceilDiv len 32)] else [])

/-- Whether blocks of the output run along columns (R117, R145). -/
def axisAlongCols (op : MOp) (p : MPlate) : Bool := p.axisCols || op == .dw

/-- Extents of a drain's output, scales and z (R117, R145, R147). -/
def drainExtents (op : MOp) (p : MPlate) : List (Nat × Nat) :=
  if !p.drain then [] else
  let (rows, len) := if op = .dw then (p.n, p.m) else (p.m, p.n)
  let (srows, slen) := if axisAlongCols op p then (p.n, p.m) else (p.m, p.n)
  lastRow p.oBase p.oStride rows (elemBytes (fmtBits p.ofmt) len) ::
    (if isNarrow p.ofmt then [lastRow p.osBase p.osStride srows (ceilDiv slen 32)] else []) ++
    (if p.zout || p.deriv then
      lastRow p.zBase p.zStride p.m (elemBytes (fmtBits p.zfmt) p.n) ::
        (if p.zfmt = 0 then [lastRow p.zsBase p.zsStride p.m (ceilDiv p.n 32)] else [])
     else [])

/-- Every extent of a product or an ACC.DRAIN. -/
def mmExtents (op : MOp) (p : MPlate) : List (Nat × Nat) :=
  (if op = .drain then [tileRange p.accBase]
   else (opndA op p).extents ++ (opndB op p).extents ++
     (if p.accBase = unbacked then [] else [(p.accBase + (gridTiles p - 1) * p.accStride, tileBytes)])) ++
  drainExtents op p

/-! ### Operand elements (R81, R87 to R89) -/

/-- Whether a W record is malformed for a depth (R81). -/
def State.recBad (s : State) (t r d : Nat) : Bool :=
  s.spNum t (r + 2) 1 % 4 != d || (s.sp t (r + 48) (32 * (d - 1))).any fun b => b.toNat.testBit 7

/-- Slice j of position i of a record, as an operand integer, with the tag of R80 and R89. -/
def State.recElem (s : State) (t r d i j : Nat) : OpElem :=
  if s.recBad t r d then ⟨0, 0, 3, false⟩
  else
    let xe := signed 16 (s.spNum t r 2)
    let tag := bitsN (s.spNum t (r + 8) 8) (2 * i + 1) (2 * i)
    let zero := (List.range d).all fun k => s.spNum t (r + 16 + 32 * k + i) 1 == 0
    if tag = 0 then ⟨signed 8 (s.spNum t (r + 16 + 32 * (j - 1) + i) 1), xe - 6 - 7 * (Int.ofNat j - 1), 0, zero⟩
    else ⟨0, 0, tag, false⟩

/-- The scale code of element (outer, k); an unscaled operand counts as 0x7F (R124). -/
def Opnd.scaleCode (o : Opnd) (s : State) (t i k : Nat) : Nat :=
  if o.scaled then
    let (r, q) := o.cell i k
    s.spNum t (o.sBase + r * o.sStride + q / 32) 1
  else 127

/-- The stored code of a narrow element. -/
def Opnd.code (o : Opnd) (s : State) (t i k : Nat) : Nat :=
  let (r, q) := o.cell i k
  s.spElem t (o.base + r * o.stride) (fmtBits o.fmt) q

/-- Element (outer, k) of slice j as an operand integer (R87, R88). -/
def Opnd.elem (o : Opnd) (s : State) (t i k j : Nat) : OpElem :=
  if o.w then s.recElem t (o.recAt i k) o.depth ((o.cell i k).2 % 32) j
  else opElem o.fmt (o.code s t i k) (o.scaleCode s t i k)

/-- Runs of bytes a load of outer positions i0.. (n) and reduction positions k0.. (m) reads, of slice j: of a W record
its first 16 bytes and the slice bytes of the positions that exist (R122). -/
def Opnd.runs (o : Opnd) (i0 n k0 m j : Nat) : List (Nat × Nat) :=
  if n = 0 ∨ m = 0 then [] else
  let (r0, rn, q0, qn) := if o.trans then (k0, m, i0, n) else (i0, n, k0, m)
  (span r0 rn).flatMap fun r =>
    if o.w then (span (q0 / 32) ((q0 + qn - 1) / 32 - q0 / 32 + 1)).flatMap fun b =>
      let a := o.base + r * o.stride + b * recBytes o.depth
      let lo := max q0 (32 * b)
      [(a, 16), (a + 16 + 32 * (j - 1) + (lo - 32 * b), min (q0 + qn) (32 * b + 32) - lo)]
    else
      let bits := fmtBits o.fmt
      let a := elemByte bits q0
      (o.base + r * o.stride + a, elemBytes bits (q0 + qn) - a) ::
        (if o.scaled then [(o.sBase + r * o.sStride + q0 / 32, (q0 + qn - 1) / 32 - q0 / 32 + 1)] else [])

/-- Malformed records a load reads (R81). -/
def Opnd.badRecs (o : Opnd) (s : State) (t i0 n k0 m : Nat) : Nat :=
  if !o.w || n == 0 || m == 0 then 0 else
  let (r0, rn, q0, qn) := if o.trans then (k0, m, i0, n) else (i0, n, k0, m)
  ((span r0 rn).flatMap fun r => (span (q0 / 32) ((q0 + qn - 1) / 32 - q0 / 32 + 1)).filter fun b =>
    s.recBad t (o.base + r * o.stride + b * recBytes o.depth) o.depth).length

/-! ### Anchors (R95, R96, R123, R131) -/

/-- Least of a list of integers. -/
def minInt : List Int → Option Int
  | [] => none
  | a :: r => match minInt r with
    | some b => some (min a b)
    | none => some a

/-- The scale of one oriented block: the least of its elements' codes that is neither 0x00 nor 0xFF; else 0xFF when
any is 0xFF, else 0x00 (R123). -/
def orientedCode (cs : List Nat) : Nat :=
  match minInt ((cs.filter fun c => c != 0 && c != 255).map Int.ofNat) with
  | some c => c.toNat
  | none => if cs.contains 255 then 255 else 0

/-- Block i of outer position r: its exponent part of the floor, whether it is a candidate (R95), and whether it has
scale 0xFF. -/
def Opnd.block (o : Opnd) (s : State) (t r i : Nat) : Int × Bool × Bool :=
  let ks := span (32 * i) (min 32 (o.k - 32 * i))
  if o.w then
    let rs := (ks.map fun k => o.recAt r k).eraseDups
    let live := rs.filter fun a => !s.recBad t a o.depth && s.spNum t (a + 3) 1 % 2 == 0
    let xe := fun (l : List Nat) => (minInt (l.map fun a => signed 16 (s.spNum t a 2))).getD 0
    if live.isEmpty then (xe rs, false, false) else (xe live, true, false)
  else
    let c := orientedCode (ks.map fun k => o.scaleCode s t r k)
    (scaleExp c, c != 0 && c != 255, c == 255)

/-- What the format pair adds to every floor (R95). -/
def floorBase (p : MPlate) : Int :=
  if p.fmtA = 10 then -5 - 7 * Int.ofNat p.depth else emin p.fmtA + emin p.fmtB

/-- The anchor of R96 for the tile whose rows and columns of the output are given: within a block index i the floor of
a pair is a sum of a row's and a column's part. -/
def anchorOf (s : State) (t : Nat) (op : MOp) (p : MPlate) (rows cols : List Nat) : Int :=
  let a := opndA op p
  let b := opndB op p
  let floors := fun (keep : Int × Bool × Bool → Bool) =>
    (List.range (ceilDiv p.k 32)).filterMap fun i =>
      match minInt (((rows.map fun r => a.block s t r i).filter keep).map (·.1)),
            minInt (((cols.map fun c => b.block s t c i).filter keep).map (·.1)) with
      | some x, some y => some (x + y + floorBase p)
      | _, _ => none
  match minInt (floors fun x => x.2.1) with
  | some f => f
  | none => (minInt (floors fun x => !x.2.2)).getD 0

/-- Whether a command's anchors take a scan (R131): unless both operands are unscaled narrow formats. -/
def needsScan (p : MPlate) : Bool := p.fmtA == 10 || carriesScale p.fmtA p.scaledA || carriesScale p.fmtB p.scaledB

/-- Runs of bytes the anchor scan reads of an operand's outer positions (R131). -/
def Opnd.scanRuns (o : Opnd) (i0 n : Nat) : List (Nat × Nat) :=
  if n = 0 ∨ o.k = 0 then [] else
  let (r0, rn, q0, qn) := if o.trans then (0, o.k, i0, n) else (i0, n, 0, o.k)
  (span r0 rn).flatMap fun r =>
    if o.w then (span (q0 / 32) ((q0 + qn - 1) / 32 - q0 / 32 + 1)).map fun b =>
      (o.base + r * o.stride + b * recBytes o.depth, 4)
    else if o.scaled then [(o.sBase + r * o.sStride + q0 / 32, (q0 + qn - 1) / 32 - q0 / 32 + 1)] else []

/-! ### Terms and partials (R88 to R90, R98, R99) -/

/-- The tag of a term (R89). -/
def termTag (a b : OpElem) : Nat :=
  if a.tag = 3 ∨ b.tag = 3 then 3
  else if a.tag = 0 ∧ b.tag = 0 then 0
  else if (a.tag = 0 ∧ a.zero) ∨ (b.tag = 0 ∧ b.zero) then 3
  else
    let neg := fun (x : OpElem) => if x.tag = 0 then decide (x.m < 0) else x.tag == 2
    if neg a != neg b then 2 else 1

/-- One partial: the sum of the placed terms, the tag sum, and whether a term was rounded (R98, R99). `first` tells
that tags take part: always in a narrow product, in slice pair (1, 1) of a wide one. -/
def partialOf (anchor : Int) (first : Bool) : List OpElem → List OpElem → Int × Nat × Bool
  | a :: as, b :: bs =>
    let (v, g, ix) := partialOf anchor first as bs
    let tg := if first then termTag a b else 0
    if a.tag != 0 || b.tag != 0 then (v, tagAdd tg g, ix)
    else
      let (n, r) := placeRne (a.m * b.m) (a.e + b.e - anchor)
      (v + n, tagAdd tg g, ix || r)
  | _, _ => (0, 0, false)

/-- The checksum row (R453): per position the exact column sum over the rows with finite elements. -/
def checksumRow (rows : List (List OpElem)) (n : Nat) : List OpElem :=
  (List.range n).map fun k =>
    let col := (rows.map fun r => r.getD k ⟨0, 0, 0, true⟩).filter fun e => e.tag == 0
    let e0 := (minInt (col.map (·.e))).getD 0
    let v := (col.map fun e => e.m * 2 ^ (e.e - e0).toNat).foldl (· + ·) 0
    ⟨v, e0, 0, v == 0⟩

/-! ### Drained values (R108 to R111, R145, R147, R152) -/

/-- The exact value y of an element with integer i and tag g at an anchor, under scales S1 × S2 (R108). -/
def drainY (i : Int) (g : Nat) (anchor : Int) (s1 s2 : BitVec 32) : XReal :=
  let sc := (fp32 s1).mul (fp32 s2)
  match sc with
  | .nan => .nan
  | _ =>
    if g = 3 then .nan
    else if g = 1 ∨ g = 2 then (if sc.isZero then .nan else .inf ((g == 2) != sc.neg?))
    else if i = 0 then (if sc.isFin then .zero else .nan)
    else (XReal.ofInt i anchor).mul sc

/-- What the drain writes for an element with exact value y: the stencil, or the derivative drain (R109, R152). -/
def drainValue (x : Tile) (p : MPlate) (y : XReal) (za : BitVec 32) : XReal :=
  if p.deriv then derivProduct y (x.stencil p.stencil true za)
  else if p.stencil = 0 then y else x.stencil p.stencil false (toFp32 .rne y)

/-- The offset of the run that holds output element (r, c), and its position in the run (R117, R145). -/
def outCell (op : MOp) (p : MPlate) (r c : Nat) : Nat × Nat :=
  if op = .dw then (p.oBase + c * p.oStride, r) else (p.oBase + r * p.oStride, c)

/-- The offset of the scale of output element (r, c) (R117, R145). -/
def outScale (op : MOp) (p : MPlate) (r c : Nat) : Nat :=
  if axisAlongCols op p then p.osBase + c * p.osStride + r / 32 else p.osBase + r * p.osStride + c / 32

/-- A destination quotient v / T_dst (R63). -/
def dstQuot (v : XReal) (t : BitVec 32) : QReal := v.div (fp32 t)

/-- Counts of one conversion. -/
structure ConvCount where
  sats : Nat
  nans : Nat
  deriving DecidableEq, Repr

/-- A list of element codes written one by one into their cells. -/
def State.putCells (s : State) (t bits : Nat) (cells : List ((Nat × Nat) × Nat)) : State :=
  cells.foldl (fun s c => s.spPutElem t c.1.1 bits c.1.2 c.2) s

/-- One block of a narrow scaled tensor written by a drain: its codes, and its scale byte unless it was given and
stands (R67, R73, R74). Of a block with fewer than 32 elements only those of the region are written (R113). Answers
the counts. [log 142: DEDUCED] -/
def State.putBlock (s : State) (t fmt : Nat) (given : Option Nat) (scaleOff : Nat) (cells : List (Nat × Nat))
    (qs : List (QReal × Rnd)) : State × ConvCount :=
  let o := convBlock fmt given qs
  let s := s.putCells t (fmtBits fmt) (cells.zip o.codes)
  let s := if given.isSome && o.scale != 255 then s else s.spWrite t scaleOff [BitVec.ofNat 8 o.scale]
  (s, ⟨o.sats, if o.nan then 1 else 0⟩)

end Sys2Proof.Machine
end

