-- ==== Sys2Proof/Machine/Matrix.lean ====
section
/-! DEFINITION. The matrix units at work: start, loads, anchor scan, window, pipeline, drain, faults and retirement
(R114 to R160, R206, R207, R453 to R459). Each row of the table is one event of a unit; what the unit does next follows
from its state, in the order the rules give. -/
namespace Sys2Proof.Machine

/-! ### Commands as plans -/

/-- A plate with every field zero. -/
def MPlate.zero : MPlate :=
  { overwrite := false, fmtA := 0, fmtB := 0, scaledA := false, scaledB := false, depth := 0, transA := false
    transB := false, drain := false, clear := false, ofmt := 0, rnd := 0, given := false, axisCols := false
    zout := false, deriv := false, zfmt := 0, stencil := 0, m := 0, n := 0, k := 0, aBase := 0, aStride := 0
    saBase := 0, saStride := 0, bBase := 0, bStride := 0, sbBase := 0, sbStride := 0, accBase := 0, accStride := 0
    oBase := 0, oStride := 0, osBase := 0, osStride := 0, zBase := 0, zStride := 0, zsBase := 0, zsStride := 0
    s1 := 0, s2 := 0, tdst := 0, tid := 0, seed := 0 }

/-- The operation and plate of a command; ACC.INIT works on one whole tile without a reduction (R206). -/
def QCmd.mplate (c : QCmd) : MOp × MPlate :=
  match c.work with
  | .mm op p => (op, p)
  | .accInit b _ _ => (.f, { MPlate.zero with overwrite := true, m := 64, n := 64, accBase := b })
  | _ => (.f, MPlate.zero)

/-- Whether a command performs sweeps. -/
def MRun.sweeps (r : MRun) : Nat :=
  match r.cmd.work with
  | .mm .drain _ => 0
  | _ => sweepCount r.cmd.mplate.2

/-- The state of a half opened fresh or waiting for its fill (R94, R121). -/
def newHalf (p : MPlate) (pb g h : Nat) (fresh : Bool) : HalfRun :=
  let j := 2 * g + h
  { p := pb, g := g, h := h
    base := if p.accBase = unbacked then none else some (p.accBase + (pb * ceilDiv p.n 64 + j) * p.accStride)
    mt := min 64 (p.m - 64 * pb), nt := min 64 (p.n - 64 * j), fresh := fresh, anchor := 0, anchored := false
    sat := false, inexact := false, nan := false, chk := false, fault := 0, sentinel := 0, drainMax := 0, acc := []
    tag := [], hdrRead := fresh, filled := if fresh then min 64 (p.n - 64 * j) else 0, opened := false, closed := 0
    drained := 0, spilled := 0, skip := [], hdrDone := false, noDrain := false, cut := false
    codes := none }

/-- A half whose anchor needs no scan takes the constant floor (R131). -/
def HalfRun.constAnchor (x : HalfRun) (p : MPlate) : HalfRun :=
  if !x.anchored && decide (0 < p.k) && !needsScan p then { x with anchor := floorBase p, anchored := true } else x

/-- The halves of group number grp (R120, R121). -/
def groupHalves (p : MPlate) (grp : Nat) : List HalfRun :=
  let pb := grp / colGroups p
  let g := grp % colGroups p
  ([0, 1].filter fun h => decide (2 * g + h < ceilDiv p.n 64)).map fun h =>
    (newHalf p pb g h p.overwrite).constAnchor p

/-- The halves of a group of a command with K = 0: all their columns are closed at once; an accumulate-mode command
neither fills nor spills, so its halves have no tile (R113, R121). -/
def emptyHalves (p : MPlate) (grp : Nat) : List HalfRun :=
  (groupHalves p grp).map fun x =>
    let y := newHalf p x.p x.g x.h true
    { y with opened := true, closed := y.nt, base := if p.overwrite then y.base else none }

/-- The half of an ACC.INIT (R94, R206) or of an ACC.DRAIN (R207). -/
def soleHalf (c : QCmd) : List HalfRun :=
  match c.work with
  | .accInit b preset a =>
    let y := newHalf c.mplate.2 0 0 0 true
    [{ y with base := some b, opened := true, closed := 64, anchored := preset, anchor := if preset then a else 0 }]
  | .mm .drain p => [{ newHalf p 0 0 0 false with base := some p.accBase, opened := true }]
  | _ => []

/-- A command in flight before anything has happened. -/
def MRun.start (c : QCmd) : MRun :=
  { cmd := c, cycle := 0, failAt := none, fed := 0, fedCols := 0, statNext := 0, streamNext := 0, stat := []
    stream := [], pipe := [none, none, none, none], halves := [], stage := [], z := [], drainHold := 0, stop := none
    abortReq := false, res := .ok, finished := false }

/-- How a command starts: at once finished with BOUNDS, or with OK where it has no work (R113, R118, R135, R206,
R207); else with its first halves. -/
def startRun (c : QCmd) : MRun :=
  let r := MRun.start c
  let (op, p) := c.mplate
  match c.work with
  | .accInit b _ _ =>
    if fits (tileRange b) then { r with halves := soleHalf c } else { r with res := .bounds, finished := true }
  | _ =>
    if p.m = 0 ∨ p.n = 0 then { r with finished := true }
    else if !(mmExtents op p).all fits then { r with res := .bounds, finished := true }
    else if op = .drain then { r with halves := soleHalf c }
    else if p.k = 0 then
      if !p.overwrite && !p.drain then { r with finished := true }
      else { r with halves := emptyHalves p 0, fed := 1 }
    else { r with halves := groupHalves p 0 }

/-! ### The state of halves -/

/-- Whether two halves belong to one group. -/
def sameGroup (a b : HalfRun) : Bool := a.p == b.p && a.g == b.g

/-- The number of a half's group. -/
def HalfRun.grp (x : HalfRun) (p : MPlate) : Nat := x.p * colGroups p + x.g

/-- Whether a half drains. -/
def HalfRun.drains (x : HalfRun) (p : MPlate) : Bool := p.drain && !x.noDrain

/-- Whether a half's drain has taken every column it is to take. -/
def HalfRun.drainOver (x : HalfRun) (p : MPlate) : Bool := !x.drains p || decide (x.nt ≤ x.drained)

/-- Whether the half spills its fresh state in place of its sums (R133). -/
def HalfRun.clears (x : HalfRun) (p : MPlate) : Bool := p.clear && x.drains p

/-- Columns that a half spills (R121, R207); an ACC.DRAIN whose check failed clears no further column (R459). -/
def HalfRun.spillTo (x : HalfRun) (op : MOp) (p : MPlate) : Nat :=
  if x.base.isNone then 0
  else if op = .drain then (if x.clears p then (if x.cut then x.nt else 64) else 0)
  else if x.fresh || x.clears p then 64 else x.nt

/-- Whether a half may spill its next column: its last ADD has passed, and where the fresh state is spilled its output
is out. -/
def HalfRun.spillReady (x : HalfRun) (op : MOp) (p : MPlate) : Bool :=
  x.opened && !x.hdrDone && decide (x.spilled < x.spillTo op p) &&
    (decide (x.nt ≤ x.spilled) && decide (x.nt ≤ x.closed) && x.drainOver p ||
      decide (x.spilled < x.closed) && (!x.clears p || decide (x.spilled < x.drained)))

/-- Whether a half's header is to be written now. -/
def HalfRun.headerReady (x : HalfRun) (op : MOp) (p : MPlate) : Bool :=
  x.base.isSome && x.opened && x.hdrRead && !x.hdrDone && decide (x.nt ≤ x.closed) &&
    decide (x.spillTo op p ≤ x.spilled) && x.drainOver p

/-- Whether a half has nothing left to do. -/
def HalfRun.past (x : HalfRun) (p : MPlate) (stage : List StageBlk) : Bool :=
  (x.hdrDone || (x.base.isNone && x.opened && decide (x.nt ≤ x.closed))) && x.drainOver p &&
    !stage.any fun b => b.p == x.p && b.g == x.g && b.h == x.h

/-- A half replaced in a list. -/
def putHalf (l : List HalfRun) (x : HalfRun) : List HalfRun :=
  l.map fun y => if y.p = x.p ∧ y.g = x.g ∧ y.h = x.h then x else y

/-- Whether window column c of a half's place is free of earlier groups once `k` more columns have spilled, one per
CCLK: spilled and drained (R121, R129). -/
def colFree (p : MPlate) (x : HalfRun) (c k : Nat) : List HalfRun → Bool
  | [] => true
  | y :: r =>
    if y.p = x.p ∧ y.g = x.g then true
    else (y.h != x.h || ((y.hdrDone || y.base.isNone || decide (c < y.spilled) ||
        (decide (c < y.spilled + k) && decide (c < y.closed))) &&
      (!y.drains p || decide (c < y.drained)))) && colFree p x c k r

/-- Whether a half's header may be read: the previous header of its place is written, and half 0 of its group comes
first (R121). -/
def headerDue (x : HalfRun) : List HalfRun → Bool
  | [] => true
  | y :: r =>
    if y.p = x.p ∧ y.g = x.g ∧ y.h = x.h then true
    else (if y.p = x.p ∧ y.g = x.g then y.hdrRead else y.h != x.h || y.hdrDone || y.base.isNone) && headerDue x r

/-- A half in which something failed closes without a drain, with FAULT set (R139, R104). Where it was to spill its
fresh state it now spills its sums, the columns already spilled among them, so that every element holds its earlier
value plus whole partials. [log 143: DEDUCED] -/
def HalfRun.fail (x : HalfRun) (p : MPlate) (st : Status) : HalfRun :=
  { x with noDrain := true, fault := if x.fault = 0 then st.code else x.fault
           spilled := if x.clears p then 0 else x.spilled }

/-- A fault stops the feeder (R139); the first one in R14 gives the status. -/
def MRun.stopWith (r : MRun) (st : Status) : MRun :=
  { r with stop := some (match r.stop with | some q => q.merge st | none => st), res := r.res.merge st }

/-- A load that failed keeps sweep x, and with it every later one, from starting (R131, R140). -/
def MRun.failFrom (r : MRun) (x : Nat) (st : Status) : MRun :=
  { r with failAt := match r.failAt with
    | some (y, q) => some (min x y, q.merge st)
    | none => some (x, st) }

/-- Whether no failed load keeps sweep x from starting: sweeps before it go on as before (R140). -/
def MRun.mayStart (r : MRun) (x : Nat) : Bool :=
  match r.failAt with
  | none => true
  | some (y, _) => decide (x < y)

/-- After a stop, with the pipeline empty: halves of groups never opened are discarded, and every half that is still
open, its header not yet written, closes without a drain and with FAULT (R139). [log 135: DEDUCED]
[log 145: DEDUCED] -/
def MRun.closeAll (r : MRun) : MRun :=
  let p := r.cmd.mplate.2
  match r.stop with
  | none => r
  | some st =>
    if r.pipe.any (·.isSome) then r
    else
      let shut := fun (x : HalfRun) => { x.fail p st with
        closed := x.nt, filled := x.nt, skip := x.skip ++ span x.filled (x.nt - x.filled) }
      { r with halves := (r.halves.filter (·.opened)).map fun x => if x.hdrDone then x else shut x }

/-- What follows an event by itself: the close of R139, halves that are over leave the window, a command with K = 0
goes on to its next group, and a command with nothing left is finished. A staging block that is complete is written
after a stop as well; one that is not is dropped. [log 144: DESIGN CHOICE] -/
def MRun.settle (r : MRun) : MRun :=
  let p := r.cmd.mplate.2
  let r := r.closeAll
  let fed := fun (b : StageBlk) (x : HalfRun) =>
    x.p == b.p && x.g == b.g && x.h == b.h && x.drains p && !(x.cut && decide (x.nt ≤ x.drained))
  let r := { r with stage := r.stage.filter fun b => b.complete || r.halves.any (fed b) }
  let hs := r.halves.filter fun x => !x.past p r.stage
  let r := { r with
    halves := hs
    z := r.z.filter fun z => hs.any fun x => x.p == z.p && x.g == z.g && x.h == z.h }
  if !hs.isEmpty || !r.stage.isEmpty || r.pipe.any (·.isSome) || r.finished then r
  else
    match r.cmd.work with
    | .mm .drain _ => { r with finished := true }
    | .mm _ _ =>
      if r.stop.isSome then { r with finished := true }
      else if p.k = 0 then
        if r.fed < groupCount p then { r with halves := emptyHalves p r.fed, fed := r.fed + 1 }
        else { r with finished := true }
      else if r.sweeps ≤ r.fed then { r with finished := true } else r
    | _ => { r with finished := true }

/-! ### A unit of the state -/

/-- The command a unit runs, unless the tile stands still. -/
def State.munit (s : State) (t : Nat) (u : MUnit) : Option MRun :=
  if s.tileOn t then ((s.tile t).unit u).run else none

/-- The state with a unit's run replaced and settled. -/
def State.putRun (s : State) (t : Nat) (u : MUnit) (r : MRun) : State :=
  let x := s.tile t
  s.setTile t (x.setUnit u { x.unit u with run := some r.settle })

/-- A register of a unit. -/
def uReg (t : Nat) (u : MUnit) (o : Nat) : Nat := unitReg t (munitNum u) o

/-- A hardware check that failed in a unit (R459, R474): counted and recorded; a checksum mismatch sets CHK_SEEN. -/
def State.unitCheck (s : State) (t : Nat) (u : MUnit) (k : ChkKind) (column : Nat) : State :=
  let s := s.checkFailed t (munitNum u) k column
  if k = .row then s.putBit (uReg t u 0) 2 true else s

/-! ### Start (R137, R175, R179, R231, R248) -/

/-- The user stencil slot a command names, and whether it loads it (R231). -/
def QCmd.slot (c : QCmd) : Option (Nat × Bool) :=
  match c.work with
  | .mm _ p => if p.drain && decide (128 ≤ p.stencil) then some (p.stencil, false) else none
  | .vop .tload p => some (p.stencil, true)
  | .vop .sten p => if 128 ≤ p.stencil then some (p.stencil, false) else none
  | .vop .dsten p => if 128 ≤ p.stencil then some (p.stencil, false) else none
  | _ => none

/-- Whether an earlier command keeps this one from its stencil slot (R231). [log 31: DEDUCED] -/
def Tile.slotWait (x : Tile) (c : QCmd) : Bool :=
  match c.slot with
  | none => false
  | some (n, load) => x.live.any fun d => decide (d.seq < c.seq) && match d.slot with
    | some (m, l) => m == n && (load || l)
    | none => false

/-- Whether a queue head waits for more than its event and its unit: the interlock, a stencil slot, or the adder's
hold (R137, R231, R248). -/
def Tile.headHeld (x : Tile) (c : QCmd) : Bool := x.interlocked c || x.slotWait c || x.adderHolds c

/-- MATRIX_COMMAND_START (R137, R175): the examination of a unit's queue head in one cycle. It starts when the unit is
free and nothing holds it; a held cycle counts as interlock wait, also while the unit is busy, or as event wait where
only the event holds it (R179). -/
def execMatrixCommandStart (t : TileId) (u : MUnit) (s : State) : Host.Outcome State Fault Refusal :=
  .next (
    let x := s.tile t
    match (x.unit u).queue with
    | [] => s
    | c :: rest =>
      if !s.tileOn t then s
      else if x.headHeld c then s.count64 (uReg t u 0x38) 1
      else if (x.unit u).run.isSome then s
      else if !s.waitMet t c then s.count64 (tileBase t + 0x60) 1
      else s.setTile t (x.setUnit u ⟨rest, some (startRun c)⟩))

/-! ### Loads and the anchor scan (R122 to R126, R131, R140) -/

/-- The outer positions of a row block, or of a column group: first and count. -/
def rowRange (p : MPlate) (pb : Nat) : Nat × Nat := (64 * pb, min 64 (p.m - 64 * pb))
def colRange (p : MPlate) (g : Nat) : Nat × Nat := (128 * g, sweepCols p g)

/-- STATIONARY_LOAD_DONE (R122, R124): the next stationary block stands in a free half with its checksum row. A load
that met an uncorrectable word keeps its sweep from starting (R140). [log 36: DESIGN CHOICE] -/
def execStationaryLoadDone (t : TileId) (u : MUnit) (s : State) : Host.Outcome State Fault Refusal :=
  .next (match s.munit t u with
    | none => s
    | some r =>
      let (op, p) := r.cmd.mplate
      match if r.sweeps = 0 ∨ r.stop.isSome then none else nextBlock p 1024 r.statNext with
      | none => s
      | some x =>
        if 2 ≤ r.stat.length ∨ r.mayStart x = false ∨ s.portFree t [muPort u 0] = false then s
        else
          let w := sweepAt p x
          let a := opndA op p
          let (i0, n) := rowRange p w.p
          let (k0, m) := kRange p w.ks
          let (bad, s) := s.spCheckAll t (a.runs i0 n k0 m w.i)
          let s := s.count (uReg t u 0x48) (a.badRecs s t i0 n k0 m)
          if bad then s.putRun t u { r.failFrom x .memUe with statNext := x + 1 }
          else
            let rows := (span i0 n).map fun i => (span k0 m).map fun k => a.elem s t i k w.i
            s.putRun t u { r with
              statNext := x + 1
              stat := r.stat ++ [⟨x, w.p, w.ks, w.i, rows, checksumRow rows m⟩] })

/-- Whether the anchor scan that precedes the stream load of a group's first sweep is still to come: every group's but
the first one of an accumulate-mode command, whose headers are read only from cycle 0 (R131, R135). -/
def MRun.scanFirst (r : MRun) (x : Nat) : Bool :=
  let p := r.cmd.mplate.2
  let w := sweepAt p x
  needsScan p && x % groupSweeps p == 0 && (p.overwrite || decide (0 < w.grp)) &&
    r.halves.any fun h => h.p == w.p && h.g == w.g && !h.anchored

/-- STREAM_LOAD_DONE (R125): the next sweep's columns stand in a free stream half. [log 36: DESIGN CHOICE] -/
def execStreamLoadDone (t : TileId) (u : MUnit) (s : State) : Host.Outcome State Fault Refusal :=
  .next (match s.munit t u with
    | none => s
    | some r =>
      let (op, p) := r.cmd.mplate
      let x := r.streamNext
      if r.sweeps ≤ x || !r.mayStart x || r.stop.isSome || decide (2 ≤ r.stream.length) || r.scanFirst x ||
          !s.portFree t [muPort u 1] then s
      else
        let w := sweepAt p x
        let b := opndB op p
        let (i0, n) := colRange p w.g
        let (k0, m) := kRange p w.ks
        let (bad, s) := s.spCheckAll t (b.runs i0 n k0 m w.j)
        let s := s.count (uReg t u 0x48) (b.badRecs s t i0 n k0 m)
        if bad then s.putRun t u { r.failFrom x .memUe with streamNext := x + 1 }
        else
          let col := fun i => (⟨(span k0 m).map fun k => b.elem s t i k w.j,
            if b.fmt = 5 then ((span k0 m).filter fun k => b.code s t i k == 2).length else 0⟩ : StreamCol)
          s.putRun t u { r with streamNext := x + 1, stream := r.stream ++ [⟨x, (span i0 n).map col⟩] })

/-- ANCHOR_SCAN_DONE (R131): the earliest group that waits for a scan, its headers read, takes its anchors under R96. -/
def execAnchorScanDone (t : TileId) (u : MUnit) (s : State) : Host.Outcome State Fault Refusal :=
  .next (match s.munit t u with
    | none => s
    | some r =>
      let (op, p) := r.cmd.mplate
      match r.halves.find? fun x => !x.anchored with
      | none => s
      | some x0 =>
        let hs := r.halves.filter fun x => sameGroup x x0
        if r.sweeps = 0 || !needsScan p || !s.portFree t [muPort u 1] || !hs.all (·.hdrRead) || r.stop.isSome ||
            !r.mayStart (x0.grp p * groupSweeps p) then s
        else
          let (i0, n) := rowRange p x0.p
          let (j0, m) := colRange p x0.g
          let (bad, s) := s.spCheckAll t ((opndA op p).scanRuns i0 n ++ (opndB op p).scanRuns j0 m)
          if bad then s.putRun t u (r.failFrom (x0.grp p * groupSweeps p) .memUe)
          else
            let fix := fun (x : HalfRun) =>
              if sameGroup x x0 ∧ x.anchored = false then
                { x with anchored := true
                         anchor := anchorOf s t op p (span i0 n) (span (128 * x.g + 64 * x.h) x.nt) }
              else x
            s.putRun t u { r with halves := r.halves.map fix })

/-! ### Header cycles, fills and spills (R121, R132, R140) -/

/-- The tag plane of a half, as 1,024 bytes (R92). -/
def tagPlane (tag : Table Nat) : List Byte :=
  (List.range 1024).map fun i => BitVec.ofNat 8
    ((List.range 4).foldr (fun k acc => tget (fun _ => 0) tag (4 * i + k) + 4 * acc) 0)

/-- The tags of a tile in scratchpad. -/
def State.tagsAt (s : State) (t base : Nat) : Table Nat :=
  (List.range 4096).filterMap fun j =>
    let g := tileTag (fun i => s.byte (spBase t + base + i)) j
    if g = 0 then none else some (j, g)

/-- The header a half writes (R111, R112, R132, R207). -/
def HalfRun.header (x : HalfRun) (p : MPlate) : TileHdr :=
  if x.clears p ∧ x.cut = false then { hdrFresh with sentinel := x.drainMax }
  else { anchor := x.anchor, anchored := x.anchored, sat := x.sat, inexact := x.inexact, nan := x.nan, chk := x.chk
         fault := x.fault
         sentinel := if x.drains p && !x.cut then x.drainMax else x.sentinel }

/-- The header write of a half, with the whole tag plane; an ACC.DRAIN writes the tag plane only when it clears. -/
def State.headerWrite (s : State) (t : Nat) (op : MOp) (p : MPlate) (x : HalfRun) (base : Nat) : State :=
  let s := s.spWrite t (base + 0x10400) (hdrBytes (x.header p))
  if op = .drain then
    if x.clears p ∧ x.cut = false then s.spWrite t (base + 0x10000) (tagPlane []) else s
  else s.spWrite t (base + 0x10000) (tagPlane (if x.clears p then [] else x.tag))

/-- The header read of a half: header and tag plane, or the fault of R140, which ends the command. A half that finds
FAULT set does not drain; an ACC.DRAIN then ends at once with the status FAULT holds (R112, R207). A product fixes the
anchor of an unanchored half whose floors need no scan (R96, R131); an ACC.DRAIN leaves the anchor as it is. -/
def State.headerRead (s : State) (t : Nat) (u : MUnit) (r : MRun) (op : MOp) (p : MPlate) (x : HalfRun) (base : Nat) :
    State :=
  let (bad, s) := s.spCheck t (base + 0x10000) 1088
  if bad then
    if op = .drain then s.putRun t u { r with res := r.res.merge .memUe, halves := [], finished := true }
    else s.putRun t u (r.stopWith .memUe)
  else
    let h := hdrOf (s.sp t (base + 0x10400) 64)
    let y := { x with
      anchor := h.anchor, anchored := h.anchored, sat := h.sat, inexact := h.inexact, nan := h.nan, chk := h.chk
      fault := h.fault, sentinel := h.sentinel, tag := s.tagsAt t base, hdrRead := true, noDrain := h.fault != 0 }
    let res := if p.drain && h.fault != 0 then r.res.merge (Status.ofCode h.fault) else r.res
    if op = .drain ∧ h.fault ≠ 0 then
      s.putRun t u { r with res := Status.ofCode h.fault, halves := [], finished := true }
    else s.putRun t u { r with
      res := res
      halves := putHalf r.halves (if op = .drain then y else y.constAnchor p) }

/-- HEADER_CYCLE (R121): the first half whose header is due is written; else the first half that waits for its header,
and whose window place is free, reads it. A tile that the adder holds waits (R248). -/
def execHeaderCycle (t : TileId) (u : MUnit) (s : State) : Host.Outcome State Fault Refusal :=
  .next (match s.munit t u with
    | none => s
    | some r =>
      let (op, p) := r.cmd.mplate
      match r.halves.find? fun x => x.headerReady op p && !(s.tile t).adderHasHalf x && s.portFree t [muPort u 5] with
      | some x => match x.base with
        | some b => (s.headerWrite t op p x b).putRun t u { r with halves := putHalf r.halves { x with hdrDone := true } }
        | none => s
      | none =>
        match r.halves.find? fun x => !x.hdrRead && headerDue x r.halves &&
            r.mayStart (x.grp p * groupSweeps p) && r.stop.isNone && !(s.tile t).adderHasHalf x &&
            s.portFree t [muPort u 3] with
        | some x => match x.base with
          | some b => s.headerRead t u r op p x b
          | none => s
        | none => s)

/-- A column of a tile in scratchpad: the 64 elements with their keys. -/
def State.columnAt (s : State) (t base c : Nat) : List (Nat × Int) :=
  (List.range 64).map fun r => (64 * r + c, signed 128 (s.spNum t (base + 16 * (64 * r + c)) 16))

/-- Elements put into a half. -/
def putElems (acc : Table Int) (es : List (Nat × Int)) : Table Int :=
  es.foldl (fun a e => tset (fun _ => 0) a e.1 e.2) acc

/-- The next column of a half is read from its tile. An uncorrectable word leaves the column unspilled and ends the
command (R140); in an ACC.DRAIN it ends the drain at that column (R207). -/
def State.fillColumn (s : State) (t : Nat) (u : MUnit) (r : MRun) (x : HalfRun) (b : Nat) : State :=
  let op := r.cmd.mplate.1
  let c := x.filled
  let (bad, s) := s.spCheckAll t ((List.range 64).map fun k => (b + 16 * (64 * k + c), 16))
  let adv := if op = .drain then c + 1 else x.closed
  if !bad then
    let y := { x with filled := c + 1, closed := adv, acc := putElems x.acc (s.columnAt t b c) }
    s.putRun t u { r with halves := putHalf r.halves y }
  else if op = .drain then
    let y := { x with nt := c, filled := c, closed := c, cut := true, fault := if x.fault = 0 then 4 else x.fault }
    s.putRun t u { r with res := r.res.merge .memUe, halves := putHalf r.halves y }
  else
    s.putRun t u (({ r with halves := putHalf r.halves { x with filled := c + 1, skip := x.skip ++ [c] } }).stopWith .memUe)

/-- WINDOW_FILL (R121): the next window column whose place is free fills from its tile; a column waits for nothing but
its own place, and an ACC.DRAIN's for the header (R207). A tile that the adder holds waits (R248). -/
def execWindowFill (t : TileId) (u : MUnit) (s : State) : Host.Outcome State Fault Refusal :=
  .next (match s.munit t u with
    | none => s
    | some r =>
      let (op, p) := r.cmd.mplate
      match r.halves.find? fun x => (x.hdrRead || op != .drain) && !x.fresh && decide (x.filled < x.nt) &&
          colFree p x x.filled 0 r.halves && r.stop.isNone && !(s.tile t).adderHasHalf x && s.portFree t [muPort u 2] with
      | none => s
      | some x => match x.base with
        | none => s
        | some b => s.fillColumn t u r x b)

/-- The 64 elements of a window column as they spill (R121, R132): the fresh state, or the sums. -/
def HalfRun.spillColumn (x : HalfRun) (op : MOp) (p : MPlate) (c : Nat) : List Int :=
  if op = .drain ∨ x.clears p = true ∨ x.nt ≤ c then List.replicate 64 0
  else (List.range 64).map fun k => tget (fun _ => 0) x.acc (64 * k + c)

/-- The next column of a half is written back to its tile (R121, R132). A residue failure leaves it unwritten and ends
the command (R459). -/
def State.spillNext (s : State) (t : Nat) (u : MUnit) (r : MRun) (x : HalfRun) (b : Nat) (resFail : Bool) : State :=
  let (op, p) := r.cmd.mplate
  let c := x.spilled
  let y := { x with spilled := c + 1 }
  if c ∈ x.skip then s.putRun t u { r with halves := putHalf r.halves y }
  else if resFail then
    (s.unitCheck t u .win (64 * x.h + c)).putRun t u
      (({ r with halves := putHalf r.halves ({ y with chk := true, skip := y.skip ++ [c] }.fail p .chk) }).stopWith .chk)
  else
    let s := (x.spillColumn op p c).zipIdx.foldl (fun s (v, k) =>
      s.spWrite t (b + 16 * (64 * k + c)) (natLe 16 (unsigned 128 v))) s
    s.putRun t u { r with halves := putHalf r.halves y }

/-- WINDOW_SPILL (R121, R132): the next closed column is written back to its tile. A tile that the adder holds waits
(R248). [log 29: DESIGN CHOICE] -/
def execWindowSpill (t : TileId) (u : MUnit) (resFail : Bool) (s : State) : Host.Outcome State Fault Refusal :=
  .next (match s.munit t u with
    | none => s
    | some r =>
      let (op, p) := r.cmd.mplate
      match r.halves.find? fun x => x.spillReady op p && !(s.tile t).adderHasHalf x && s.portFree t [muPort u 4] with
      | none => s
      | some x => match x.base with
        | none => s
        | some b => s.spillNext t u r x b resFail)

/-! ### The pipeline (R126 to R130, R140, R454 to R459) -/

/-- The half a window column of a sweep lies in. -/
def MRun.halfOf (r : MRun) (w : Sweep) (col : Nat) : Option HalfRun :=
  r.halves.find? fun x => x.p == w.p && x.g == w.g && x.h == col / 64

/-- MUL and TREE: the partials of a column's rows, placed at its half's anchor (R98, R99). The stationary half is the
latest one loaded for this sweep or an earlier one. -/
def MRun.multiply (r : MRun) (p : MPlate) (c : PipeCol) : PipeCol :=
  let w := sweepAt p c.sweep
  match (r.stat.filter fun h => decide (h.sweep ≤ c.sweep)).getLast?, r.halfOf w c.col with
  | some h, some x =>
    let ps := h.rows.map fun row => partialOf x.anchor (w.i == 1 && w.j == 1) row c.elems
    { c with parts := ps.map fun q => (q.1, q.2.1), inexact := ps.any fun q => q.2.2 }
  | _, _ => c

/-- The elements and tags of a half while a column's partials join it, and whether an element saturated or took a
nonzero tag. -/
structure AddAcc where
  acc : Table Int
  tag : Table Nat
  sat : Bool
  nan : Bool
  deriving DecidableEq, Repr

/-- One element's addition (R100). -/
def addPart (a : AddAcc) (key : Nat) (q : Int × Nat) : AddAcc :=
  let (v, st) := clamp128 (tget (fun _ => 0) a.acc key + q.1)
  let g := tagAdd (tget (fun _ => 0) a.tag key) q.2
  { acc := tset (fun _ => 0) a.acc key v, tag := tset (fun _ => 0) a.tag key g, sat := a.sat || st, nan := a.nan || g != 0 }

/-- ADD: a column's partials join its window column, unless a check failed on it; in the group's last sweep the column
closes (R100, R121, R140). [log 29: DESIGN CHOICE] -/
def MRun.addColumn (r : MRun) (p : MPlate) (c : PipeCol) : MRun :=
  let w := sweepAt p c.sweep
  match r.halfOf w c.col with
  | none => r
  | some x =>
    let cc := c.col % 64
    let last := c.sweep % groupSweeps p + 1 == groupSweeps p
    let closed := if last then cc + 1 else x.closed
    match c.bad with
    | some _ => { r with halves := putHalf r.halves { x with chk := true, closed := closed } }
    | none =>
      let a := c.parts.zipIdx.foldl (fun a (q, k) => addPart a (64 * k + cc) q) ⟨x.acc, x.tag, false, false⟩
      let y := { x with acc := a.acc, tag := a.tag, closed := closed, sat := x.sat || a.sat
                        inexact := x.inexact || c.inexact, nan := x.nan || a.nan }
      { r with halves := putHalf r.halves y, res := r.res.merge (stickyStatus a.sat c.inexact) }

/-- The four stages behind the feeder move on: CHK's column is added, the others advance, READ's is multiplied. -/
def MRun.advance (r : MRun) (p : MPlate) : MRun :=
  match r.pipe with
  | [rd, mu, tr, ck] =>
    let r := match ck with | some c => r.addColumn p c | none => r
    { r with pipe := [none, rd.map (r.multiply p), mu, tr] }
  | _ => r

/-- A check fails on the column it examines in this cycle: in MUL for parity, on entering CHK for the checksum row and
the placers, at ADD for a residue (R454 to R456). Answers the window column it struck. -/
def MRun.strike (r : MRun) (k : ChkKind) : MRun × Option Nat :=
  match r.pipe with
  | [rd, mu, tr, ck] =>
    let hit := fun (c : PipeCol) => some { c with bad := some k }
    match k with
    | .parity => match rd with
      | some c => ({ r with pipe := [hit c, mu, tr, ck] }, some c.col)
      | none => (r, none)
    | .row | .place => match tr with
      | some c => ({ r with pipe := [rd, mu, hit c, ck] }, some c.col)
      | none => (r, none)
    | .win => match ck with
      | some c => ({ r with pipe := [rd, mu, tr, hit c] }, some c.col)
      | none => (r, none)
    | .drain => (r, none)
  | _ => (r, none)

/-- Whether an output is held in staging blocks: narrow with blocks along rows (R133). -/
def outStaged (op : MOp) (p : MPlate) : Bool := isNarrow p.ofmt && !axisAlongCols op p

/-- Whether z is held in staging blocks: E4M3 (R150). -/
def zStaged (p : MPlate) : Bool := p.zout && p.zfmt == 0

/-- Whether the window column of a column that enters READ now is ready in time for its ADD four cycles on: it is
filled, or fills within them at one column per CCLK, and its place is free of the previous group by then (R129). A half
that is still to open fresh waits while the adder holds its tile (R248). -/
def MRun.windowReady (r : MRun) (p : MPlate) (x : HalfRun) (c : Nat) (held : HalfRun → Bool) : Bool :=
  x.hdrRead && !(x.fresh && !x.opened && held x) &&
    if x.fresh then colFree p x c 4 r.halves
    else decide (c < x.filled) || (decide (c < x.filled + 4) && colFree p x c 3 r.halves)

/-- Columns on their way into the drain: in the pipeline in their group's last sweep, or closed and not yet drained. -/
def MRun.drainAhead (r : MRun) (p : MPlate) : Nat :=
  (r.pipe.filter fun c => match c with
    | some c => c.sweep % groupSweeps p + 1 == groupSweeps p
    | none => false).length +
    ((r.halves.filter fun x => x.opened && x.drains p).map fun x => min x.closed x.nt - x.drained).sum

/-- Bytes a column is charged at the drain: its output, its z, and 2 scale bytes for each of them that is held along
rows (R133, R150). -/
def drainCharge (op : MOp) (p : MPlate) (rows : Nat) : Nat :=
  elemBytes (fmtBits p.ofmt) rows + (if outStaged op p then 2 else 0) +
    (if p.zout then elemBytes (fmtBits p.zfmt) rows + (if zStaged p then 2 else 0) else 0)

/-- The staging block of a column, if it stands or may open: two blocks at most (R133). -/
def MRun.stageFor (r : MRun) (x : HalfRun) (c : Nat) : Option StageBlk :=
  match r.stage.find? fun b => b.p == x.p && b.g == x.g && b.h == x.h && b.first == c / 32 * 32 with
  | some b => some b
  | none => if r.stage.length < 2 then some ⟨x.p, x.g, x.h, c / 32 * 32, 0, false, 0⟩ else none

/-- Whether the drain can accept the column that enters READ now when it closes, five cycles on: the columns before it
have left the drain by then, a staging block is free for it, and its z half-block is complete (R129, R133, R150, R153).
Only a column of its group's last sweep goes into a drain. [log 146: DESIGN CHOICE] -/
def MRun.drainReady (r : MRun) (op : MOp) (p : MPlate) (x : HalfRun) (c : Nat) : Bool :=
  !x.drains p || r.fed % groupSweeps p + 1 != groupSweeps p ||
    (decide (r.drainHold + r.drainAhead p * ceilDiv (drainCharge op p x.mt) 256 ≤ 5) &&
      (!(outStaged op p || zStaged p) || (r.stageFor x c).isSome) &&
      (!p.deriv || r.z.any fun z => z.p == x.p && z.g == x.g && z.h == x.h))

/-- Why the feeder leaves a slot empty, in the order of R129: 0 throttle, 1 stationary, 2 stream, 3 window or drain.
A group whose scan is still to come waits for the stream port. `held` tells which halves' tiles the adder holds. -/
def MRun.bubble (r : MRun) (p : MPlate) (level : Nat) (held : HalfRun → Bool) : Option Nat :=
  let w := sweepAt p r.fed
  let grp := r.halves.filter fun x => x.p == w.p && x.g == w.g
  let ready := match r.halfOf w r.fedCols with
    | some x => r.windowReady p x (r.fedCols % 64) held && r.drainReady r.cmd.mplate.1 p x (r.fedCols % 64) &&
        (x.opened || grp.all fun y => y.hdrRead && !(y.fresh && held y))
    | none => false
  if !dutyOpen level r.cycle then some 0
  else if !(match (r.stat.filter fun h => decide (h.sweep ≤ r.fed)).getLast? with
    | some h => h.p == w.p && h.ks == w.ks && h.slice == w.i
    | none => false) then some 1
  else if !r.stream.any (fun h => h.sweep == r.fed) then some 2
  else if grp.all (·.hdrRead) && grp.any (fun x => !x.anchored) then some 2
  else if !ready then some 3
  else none

/-- The feeder reads the next column. The first column of a sweep frees the buffers of the sweep before it; the first
of a group opens the group and lets the next group's halves open (R121, R126, R135, R139). -/
def MRun.feed (r : MRun) (p : MPlate) : MRun × Nat :=
  let w := sweepAt p r.fed
  match r.stream.find? fun h => h.sweep == r.fed with
  | none => (r, 0)
  | some h =>
    let col := h.cols.getD r.fedCols ⟨[], 0⟩
    let c : PipeCol := ⟨r.fed, r.fedCols, col.elems, [], false, none⟩
    let keep := (r.stat.filter fun h => decide (h.sweep ≤ r.fed)).getLast?
    let r1 := if r.fedCols = 0 then { r with
        stream := r.stream.filter fun h => decide (r.fed ≤ h.sweep)
        stat := match keep with
          | some k => r.stat.filter fun h => decide (k.sweep ≤ h.sweep)
          | none => r.stat } else r
    let r2 := if r.fedCols = 0 ∧ r.fed % groupSweeps p = 0 then { r1 with
        halves := (r1.halves.map fun x => if x.p = w.p ∧ x.g = w.g then { x with opened := true } else x) ++
          (if w.grp + 1 < groupCount p then groupHalves p (w.grp + 1) else []) } else r1
    let past := decide (sweepCols p w.g ≤ r.fedCols + 1)
    ({ r2 with
        pipe := some c :: r2.pipe.drop 1
        fed := if past then r.fed + 1 else r.fed
        fedCols := if past then 0 else r.fedCols + 1 }, col.bad)

/-- The register of a bubble's cause (R129). -/
def bubbleReg (cause : Nat) : Nat :=
  match cause with
  | 0 => 0x30 | 1 => 0x20 | 2 => 0x18 | _ => 0x28

/-- The feeder's slot of this cycle. -/
def State.feedOr (s : State) (t : Nat) (u : MUnit) (r : MRun) (p : MPlate) : State :=
  match r.bubble p (s.level 0 (tileDie t)) (s.tile t).adderHasHalf with
  | some cause =>
    let s := if r.fed = 0 ∧ r.fedCols = 0 then s else s.count64 (uReg t u (bubbleReg cause)) 1
    s.putRun t u r
  | none =>
    let (r', bad) := r.feed p
    let s := (s.count64 (uReg t u 0x10) 1).count (uReg t u 0x48) bad
    let s := if r'.fed ≠ r.fed then s.count64 (uReg t u 8) 1 else s
    s.putRun t u r'

/-- The half of the column that is about to be added, with its window column. -/
def MRun.adding (r : MRun) : Option (HalfRun × Nat) :=
  match r.pipe with
  | [_, _, _, some c] => (r.halfOf (sweepAt r.cmd.mplate.2 c.sweep) c.col).map fun x => (x, c.col % 64)
  | _ => none

/-- One access that the ADD of this cycle still waits for: a spill of an earlier half of the place, else the half's own
fill. -/
def State.windowCatchUp (s : State) (t : Nat) (u : MUnit) : State :=
  match s.munit t u with
  | none => s
  | some r => match r.adding with
    | none => s
    | some (x, c) =>
      let (op, p) := r.cmd.mplate
      if x.fresh && colFree p x c 0 r.halves || decide (c < x.filled) && !x.fresh then s
      else match r.halves.find? fun y => !sameGroup y x && y.h == x.h && y.spillReady op p && decide (y.spilled ≤ c) with
        | some y => match y.base with
          | some b => s.spillNext t u r y b false
          | none => s
        | none => if x.fresh then s else match x.base with
          | some b => s.fillColumn t u r x b
          | none => s

/-- The spills and fills that bring a window column up to date by its ADD: the feeder let the column enter because the
ports would have served them by then (R129). [log 146: DESIGN CHOICE] -/
def State.windowBy (s : State) (t : Nat) (u : MUnit) : Nat → State
  | 0 => s
  | n + 1 => (s.windowCatchUp t u).windowBy t u n

/-- MATRIX_PIPELINE_CYCLE (R126 to R129): in one CCLK every column in flight advances a stage and the feeder offers a
column or a bubble. `fail` is a hardware check that fails in this cycle on the column it examines. -/
def execMatrixPipelineCycle (t : TileId) (u : MUnit) (fail : Option ChkKind) (s : State) :
    Host.Outcome State Fault Refusal :=
  .next (
    let s := s.windowBy t u 8
    match s.munit t u with
    | none => s
    | some r =>
      let p := r.cmd.mplate.2
      let r := { r with cycle := r.cycle + 1, drainHold := r.drainHold - 1 }
      let (r, s) := match fail with
        | none => (r, s)
        | some k => match r.strike k with
          | (r, some col) => (r.stopWith .chk, s.unitCheck t u k col)
          | (r, none) => (r, s)
      let r := r.advance p
      if r.sweeps ≤ r.fed || r.stop.isSome || (r.abortReq && r.fedCols == 0) then s.putRun t u r
      else match if r.fedCols = 0 then r.failAt else none with
        | some (x, st) => if x ≤ r.fed then s.putRun t u (r.stopWith st) else s.feedOr t u r p
        | none => s.feedOr t u r p)

end Sys2Proof.Machine
end

