-- ==== Sys2Proof/Machine/MatrixDrain.lean ====
section
/-! DEFINITION. The fused drain, its staging blocks, z, the boundary abort and the retirement of matrix commands
(R107 to R112, R133, R135, R140, R147 to R155, R210). -/
namespace Sys2Proof.Machine

/-! ### Values of a half -/

/-- Global output position of a half's element. -/
def HalfRun.row (x : HalfRun) (r : Nat) : Nat := 64 * x.p + r
def HalfRun.colOf (x : HalfRun) (c : Nat) : Nat := 128 * x.g + 64 * x.h + c

/-- The exact value y of element (r, c) of a half (R108). -/
def HalfRun.y (x : HalfRun) (p : MPlate) (r c : Nat) : XReal :=
  drainY (tget (fun _ => 0) x.acc (64 * r + c)) (tget (fun _ => 0) x.tag (64 * r + c)) x.anchor p.s1 p.s2

/-- The saved z of element (r, c) as the argument za (R152). -/
def MRun.za (r : MRun) (x : HalfRun) (i c : Nat) : BitVec 32 :=
  match r.z.find? fun z => z.p == x.p && z.g == x.g && z.h == x.h with
  | some z => tget (fun _ => 0) z.vals (64 * i + c)
  | none => 0

/-- What the drain writes for element (i, c) of a half, before the output rounding (R109, R152). -/
def MRun.value (r : MRun) (tile : Tile) (x : HalfRun) (i c : Nat) : XReal :=
  let p := r.cmd.mplate.2
  drainValue tile p (x.y p i c) (r.za x i c)

/-- The destination quotient of an element with the mode and draw of its rounding (R63, R69, R110). -/
def HalfRun.quot (x : HalfRun) (p : MPlate) (i c : Nat) (v : XReal) : QReal × Rnd :=
  (dstQuot v p.tdst, rndOf p.rnd p.seed p.tid (x.row i * p.n + x.colOf c))

/-- The maximum of two FP32 codes of non-negative values. -/
def maxCode32 (a b : BitVec 32) : BitVec 32 := if a.toNat < b.toNat then b else a

/-- The SENTINEL candidate of a column (R111). -/
def columnMax (vs : List XReal) : BitVec 32 :=
  (vs.filter (·.isFin)).foldl (fun m v => maxCode32 m (sentinel32 v)) 0

/-- Conversion counts added to a unit's registers (R71, R133). -/
def State.countConv (s : State) (t : Nat) (u : MUnit) (k : ConvCount) : State :=
  (s.count (uReg t u 0x40) k.sats).count (uReg t u 0x44) k.nans

/-! ### A column into the drain (R133, R148, R150, R459) -/

/-- The scale positions of a half's output: first offset and count (R117, R210). -/
def codeRuns (op : MOp) (p : MPlate) (x : HalfRun) : List (Nat × Nat) :=
  if !(isNarrow p.ofmt && p.given) then []
  else if axisAlongCols op p then (List.range x.nt).map fun c => (outScale op p (x.row 0) (x.colOf c), ceilDiv x.mt 32)
  else (List.range x.mt).map fun i => (outScale op p (x.row i) (x.colOf 0), ceilDiv x.nt 32)

/-- The given scale codes of a half, read before its first column drains (R210). -/
def State.readCodes (s : State) (t : Nat) (op : MOp) (p : MPlate) (x : HalfRun) : List (Nat × Nat) :=
  (codeRuns op p x).flatMap fun e => (List.range e.2).map fun k => (e.1 + k, s.spNum t (e.1 + k) 1)

/-- The given code of the block whose scale stands at an offset; none where the drain computes its scales. -/
def HalfRun.code (x : HalfRun) (p : MPlate) (off : Nat) : Option Nat :=
  if !p.given then none
  else match (x.codes.getD []).find? fun e => e.1 == off with
    | some e => some e.2
    | none => some 0

/-- The output of a column that goes out at once: a wide format, or a narrow one with blocks along columns. In W's
layout the column is one contiguous run, written at once (R145). -/
def State.drainOut (s : State) (t : Nat) (u : MUnit) (op : MOp) (p : MPlate) (x : HalfRun) (c : Nat) (vs : List XReal) :
    State :=
  let items := vs.zipIdx.map fun (v, i) => (outCell op p (x.row i) (x.colOf c), x.quot p i c v)
  let s := if !isNarrow p.ofmt then
      s.putCells t (fmtBits p.ofmt) (items.map fun e => (e.1, (convElem p.ofmt false e.2.2 e.2.1).code))
    else
      [0, 1].foldl (fun s b =>
        let blk := (items.drop (32 * b)).take 32
        if blk.isEmpty then s
        else
          let so := outScale op p (x.row (32 * b)) (x.colOf c)
          let (s, k) := s.putBlock t p.ofmt (x.code p so) so (blk.map (·.1)) (blk.map (·.2))
          s.countConv t u k) s
  if op = .dw then
    let (o, r) := outCell op p (x.row 0) (x.colOf c)
    let bits := fmtBits p.ofmt
    s.freshEcc (spBase t + o + elemByte bits r) (elemBytes bits (r + x.mt) - elemByte bits r)
  else s

/-- What a drain saves as z of an exact value y: an exact zero is written as +0 (R148). -/
def zArg (y : XReal) : QReal := if y.isZero then XReal.zero.toQ else y.toQ

/-- The z of a column that goes out at once: a wide format, under RNE and T_dst = 1.0 (R148, R150). -/
def State.zOut (s : State) (t : Nat) (p : MPlate) (x : HalfRun) (c : Nat) (ys : List XReal) : State :=
  s.putCells t (fmtBits p.zfmt) (ys.zipIdx.map fun (y, i) =>
    ((p.zBase + x.row i * p.zStride, x.colOf c), (convElem p.zfmt false .rne (zArg y)).code))

/-- A staging block with one more column, complete with its 32nd or with the half's last valid column. -/
def MRun.stagePut (r : MRun) (x : HalfRun) (b : StageBlk) : MRun :=
  let b' := { b with count := b.count + 1
                     complete := b.count + 1 == 32 || (!x.cut && b.first + b.count + 1 == x.nt) }
  if r.stage.contains b then { r with stage := r.stage.map fun y => if y = b then b' else y }
  else { r with stage := r.stage ++ [b'] }

/-- A half that took its last column reports the drain's status (R112). -/
def MRun.drained (r : MRun) (x : HalfRun) : MRun :=
  { r with halves := putHalf r.halves x
           res := if x.nt ≤ x.drained then r.res.merge (stickyStatus x.sat x.inexact) else r.res }

/-- One column drained: the half's given codes with its first column (R210), its direct output, its z, the SENTINEL
candidate, its place in a staging block, and the cycles its bytes take the drain (R133, R150). -/
def State.drainColumn (s : State) (t : Nat) (u : MUnit) (r : MRun) (x : HalfRun) : State :=
  let (op, p) := r.cmd.mplate
  let c := x.drained
  let staged := outStaged op p || zStaged p
  match if staged then r.stageFor x c else some ⟨0, 0, 0, 0, 0, false, 0⟩ with
  | none => s
  | some b =>
    let (bad, s) := if c = 0 then s.spCheckAll t (codeRuns op p x) else (false, s)
    if bad then s.putRun t u (({ r with halves := putHalf r.halves (x.fail p .memUe) }).stopWith .memUe)
    else
      let x := if c = 0 then { x with codes := some (s.readCodes t op p x) } else x
      let tile := s.tile t
      let ys := (List.range x.mt).map fun i => x.y p i c
      let vs := (List.range x.mt).map fun i => r.value tile x i c
      let s := if outStaged op p then s else s.drainOut t u op p x c vs
      let s := if p.zout && !zStaged p then s.zOut t p x c ys else s
      let y := { x with drained := c + 1, drainMax := maxCode32 x.drainMax (columnMax vs) }
      let r := { r.drained y with drainHold := ceilDiv (drainCharge op p x.mt) 256 - 1 }
      s.putRun t u (if staged then r.stagePut y b else r)

/-- DRAIN_COLUMN (R133): the first closed column that waits for the drain enters it, unless the drain is still taken by
the column before (R133, R150). A derivative drain whose z is not loaded waits (R153); a failed duplicate writes
nothing of the column and ends the command (R459). -/
def execDrainColumn (t : TileId) (u : MUnit) (dupFail : Bool) (s : State) : Host.Outcome State Fault Refusal :=
  .next (match s.munit t u with
    | none => s
    | some r =>
      let p := r.cmd.mplate.2
      match r.halves.find? fun x => x.opened && x.drains p && decide (x.drained < x.nt) &&
          decide (x.drained < x.closed) with
      | none => s
      | some x =>
        if 0 < r.drainHold ∨ s.portFree t [muPort u 6] = false then s
        else if p.deriv && !r.z.any (fun z => z.p == x.p && z.g == x.g && z.h == x.h) then
          s.count64 (tileBase t + 0x8308) 1
        else if dupFail then
          let y := { x with drained := x.drained + 1, chk := true }
          (s.unitCheck t u .drain (64 * x.h + x.drained)).putRun t u
            (({ r with halves := putHalf r.halves (y.fail p .chk) }).stopWith .chk)
        else s.drainColumn t u r x)

/-! ### Staging blocks (R133, R150) -/

/-- The blocks of a staging block's row, as cells and quotients. -/
def stageRow (op : MOp) (p : MPlate) (r : MRun) (tile : Tile) (x : HalfRun) (b : StageBlk) (i : Nat) :
    List ((Nat × Nat) × (QReal × Rnd)) :=
  (span b.first b.count).map fun c =>
    (outCell op p (x.row i) (x.colOf c), x.quot p i c (r.value tile x i c))

/-- One row of a staging block's column k written: the row's block is converted, its scale goes out with the block's
first column, and only column k's code is written. Positions past the region are not written (R113).
[log 142: DEDUCED] -/
def State.stageCell (s : State) (t fmt : Nat) (given : Option Nat) (so k : Nat)
    (row : List ((Nat × Nat) × (QReal × Rnd))) : State × ConvCount :=
  let o := convBlock fmt given (row.map (·.2))
  let s := if k = 0 ∧ ((given.isSome && o.scale != 255) = false) then s.spWrite t so [BitVec.ofNat 8 o.scale] else s
  let s := s.putCells t (fmtBits fmt) (((row.map (·.1)).zip o.codes).drop k |>.take 1)
  (s, if k = 0 then ⟨o.sats, if o.nan then 1 else 0⟩ else ⟨0, 0⟩)

/-- Column k of a staging block's output and z. -/
def State.stageColumn (s : State) (t : Nat) (u : MUnit) (r : MRun) (x : HalfRun) (b : StageBlk) : State :=
  let (op, p) := r.cmd.mplate
  let tile := s.tile t
  (List.range x.mt).foldl (fun s i =>
    let s := if outStaged op p then
        let so := outScale op p (x.row i) (x.colOf b.first)
        let (s, k) := s.stageCell t p.ofmt (x.code p so) so b.written (stageRow op p r tile x b i)
        s.countConv t u k
      else s
    if zStaged p then
      let row := (span b.first b.count).map fun c =>
        ((p.zBase + x.row i * p.zStride, x.colOf c), (zArg (x.y p i c), Rnd.rne))
      let (s, k) := s.stageCell t 0 none (p.zsBase + x.row i * p.zsStride + x.colOf b.first / 32) b.written row
      s.countConv t u k
    else s) s

/-- STAGING_BLOCK_WRITE (R133): the first complete block writes its next column, with its scales at the first. -/
def execStagingBlockWrite (t : TileId) (u : MUnit) (s : State) : Host.Outcome State Fault Refusal :=
  .next (match s.munit t u with
    | none => s
    | some r =>
      match if s.portFree t [muPort u 6] then r.stage.find? (·.complete) else none with
      | none => s
      | some b => match r.halves.find? fun x => x.p == b.p && x.g == b.g && x.h == b.h with
        | none => s
        | some x =>
          let s := s.stageColumn t u r x b
          let b' := { b with written := b.written + 1 }
          s.putRun t u { r with
            stage := if b.count ≤ b.written + 1 then r.stage.filter fun y => y != b
              else r.stage.map fun y => if y = b then b' else y })

/-! ### z (R153, R155) -/

/-- Runs of bytes of a half's z. -/
def zRuns (p : MPlate) (x : HalfRun) : List (Nat × Nat) :=
  (List.range x.mt).flatMap fun i =>
    (p.zBase + x.row i * p.zStride + x.colOf 0 * fmtBits p.zfmt / 8, x.nt * fmtBits p.zfmt / 8) ::
      (if p.zfmt = 0 then [(p.zsBase + x.row i * p.zsStride + x.colOf 0 / 32, ceilDiv x.nt 32)] else [])

/-- The arguments za of a half (R152). -/
def zValues (s : State) (t : Nat) (p : MPlate) (x : HalfRun) : Table (BitVec 32) :=
  ((List.range x.mt).flatMap fun i => (List.range x.nt).map fun c => (i, c)).foldl (fun z (i, c) =>
    let code := s.spElem t (p.zBase + x.row i * p.zStride) (fmtBits p.zfmt) (x.colOf c)
    let b := if p.zfmt = 0 then s.spNum t (p.zsBase + x.row i * p.zsStride + x.colOf c / 32) 1 else 127
    tset (fun _ => 0) z (64 * i + c) (toFp32 .rne (scaledElem p.zfmt code b))) []

/-- A half's z failed (R155): the command ends as R139 states; the open ones of the half and those after it close
without a drain, with FAULT set, and tiles of a group that was never opened are left as they were.
[log 145: DEDUCED] -/
def MRun.zFailed (r : MRun) (x : HalfRun) (st : Status) : MRun :=
  let from_ := r.halves.dropWhile fun y => !(y.p == x.p && y.g == x.g && y.h == x.h)
  ({ r with halves := r.halves.map fun (y : HalfRun) =>
      if y.opened && from_.contains y then y.fail r.cmd.mplate.2 st else y }).stopWith st

/-- Whether the z loads of a half's group may start: its first stationary load has started, or, where the group's first
sweep reuses a block, its first slot has come; and the drains of the group two before are over (R153). -/
def MRun.zDue (r : MRun) (p : MPlate) (x : HalfRun) : Bool :=
  let f := x.grp p * groupSweeps p
  (r.sweeps == 0 ||
    (if 0 < f ∧ sameBlock (sweepAt p f) (sweepAt p (f - 1)) = true then decide (f ≤ r.fed)
     else decide (f < r.statNext) || (decide (r.stat.length < 2) && nextBlock p 1024 r.statNext == some f))) &&
    !r.halves.any fun y => decide (y.grp p + 2 ≤ x.grp p) && y.drains p && decide (y.drained < y.nt)

/-- Z_HALF_BLOCK_LOAD (R153): B0's z port loads the next half-block; an error in it ends the command (R155). -/
def execZHalfBlockLoad (t : TileId) (bus : Bool) (s : State) : Host.Outcome State Fault Refusal :=
  .next (match s.munit t .b0 with
    | none => s
    | some r =>
      let p := r.cmd.mplate.2
      match r.halves.find? fun x => !x.noDrain && !r.z.any fun z => z.p == x.p && z.g == x.g && z.h == x.h with
      | none => s
      | some x =>
        if !p.deriv || decide (4 ≤ r.z.length) || !r.zDue p x || !s.portFree t [zPort] || r.stop.isSome || !r.mayStart (x.grp p * groupSweeps p) then s
        else if bus then s.putRun t .b0 (r.zFailed x .bus)
        else
          let (bad, s) := s.spCheckAll t (zRuns p x)
          if bad then s.putRun t .b0 (r.zFailed x .memUe)
          else s.putRun t .b0 { r with z := r.z ++ [⟨x.p, x.g, x.h, zValues s t p x⟩] })

/-! ### Abort and retirement (R135, R140, R176) -/

/-- SWEEP_BOUNDARY_ABORT (R140): at a sweep boundary a requested abort ends the command with ABORTED. -/
def execSweepBoundaryAbort (t : TileId) (u : MUnit) (s : State) : Host.Outcome State Fault Refusal :=
  .next (match s.munit t u with
    | none => s
    | some r =>
      if r.abortReq && r.fedCols == 0 && r.stop.isNone && !r.finished && decide (0 < r.sweeps) then
        s.putRun t u (r.stopWith .aborted)
      else s)

/-- The source of a unit's task faults (R192). -/
def unitSource (u : MUnit) : FaultSource :=
  match u with
  | .f => .f | .b0 => .b0 | .b1 => .b1

/-- MATRIX_COMMAND_RETIRE (R135, R176): a command with nothing left retires with its status. -/
def execMatrixCommandRetire (t : TileId) (u : MUnit) (s : State) : Host.Outcome State Fault Refusal :=
  .next (match s.munit t u with
    | none => s
    | some r =>
      if r.finished then
        let x := s.tile t
        let s := s.setTile t (x.setUnit u { x.unit u with run := none })
        (s.putReg (uReg t u 0) 10 3 r.res.code).retire t r.cmd r.res (unitSource u)
      else s)

end Sys2Proof.Machine
end

