-- ==== Sys2Proof/Machine/Secure.lean ====
section
/-! DEFINITION. The secure monitor: firmware update, attestation and certificate, and recovery mode
(R418 to R428). -/
namespace Sys2Proof.Machine

/-! ### Messages and answers (R418 to R420) -/

/-- A secure return code (R420). -/
def secCode (st : Status) (detail : Nat) : BitVec 16 := BitVec.ofNat 16 (st.code + 256 * detail)

/-- The secure commands (R419, R469). [log 118: DEDUCED] -/
def secureCmds : List Nat := [0x01, 0x02, 0x03, 0x10, 0x11, 0x12, 0x13, 0x14]

/-- A message of the monitor leaves it: its channel is acknowledged with a return code. -/
def State.secAnswer (s : State) (x : Fin 2 × Fin 16) (st : Status) (detail : Nat) : State :=
  { s with secure := s.secure.erase x }.ackH2d x.1 x.2 (secCode st detail)

/-- The monitor serves its oldest message, of those whose port Flint reaches, where it is the command `cmd` (R413, R418,
R419): an unknown command is answered at once, and so is one that names a buffer from a port without resources. `act` works
for a port with an ARG and answers a status and a DETAIL. [log 118: DEDUCED] -/
def State.serve (s : State) (cmd : Nat) (buffer : Bool) (act : Nat → Nat → State → Status × Nat × State) : State :=
  match s.secure.find? fun (x : Fin 2 × Fin 16) => s.flintReaches x.1 with
  | none => s
  | some x =>
    let m := (s.mail 0 x.1 x.2).data.toNat
    if !(s.mode == .running || s.mode == .halted) then s
    else if !secureCmds.contains (m / 2 ^ 24) then s.secAnswer x .format 1
    else if m / 2 ^ 24 ≠ cmd then s
    else if buffer && !s.ownsParts x.1 then s.secAnswer x .priv 0
    else
      let (st, d, s) := act x.1 (m % 2 ^ 24) s
      s.secAnswer x st d

/-- Flint's read of n bytes at an offset of a buffer (R418, R419). [log 119: DEDUCED] -/
def State.bufRead (s : State) (p arg off n : Nat) : Status × List Byte × State :=
  match s.memAt (s.portPart p) (4096 * arg + off) n with
  | none => (.bounds, [], s)
  | some a =>
    let (st, s) := s.memRead flintSrc a n
    (st, if st = .ok then s.bytes a n else [], s)

/-- Flint's write of bytes at an offset of a buffer. -/
def State.bufWrite (s : State) (p arg off : Nat) (bs : List Byte) : Status × State :=
  match s.memAt (s.portPart p) (4096 * arg + off) bs.length with
  | none => (.bounds, s)
  | some a => s.memWrite flintSrc a bs

/-- An image in a buffer (R421 to R423): its header is read, and the whole of it where its form is right; a DETAIL of
R420 tells what it fails. [log 108: DEDUCED] -/
def State.bufImage (s : State) (p arg off ty size : Nat) : Except (Status × Nat × State) (Image × State) :=
  match s.bufRead p arg off 64 with
  | (.ok, h, s) =>
    if !imgShape h ty size then .error (.format, 3, s)
    else match s.bufRead p arg off (imgTotal h) with
      | (.ok, img, s) => if imgSealed img then .ok (img, s) else .error (.format, 2, s)
      | (st, _, s) => .error (st, 0, s)
  | (st, _, s) => .error (st, 0, s)

/-! ### FW_UPDATE, ATTEST, CERT (R423, R426 to R428) -/

/-- FW_UPDATE's work: the slot is erased and written, VALID last; a failed flash write leaves it without VALID.
[log 120: DEDUCED] -/
def State.fwWrite (s : State) (img : Image) (flashOk : Bool) : Status × Nat × State :=
  if flashOk then (.ok, 0, { s with flash := { s.flash with fwImage := img, fwValid := true } })
  else (.bus, 6, { s with flash := { s.flash with fwImage := [], fwValid := false } })

/-- FW_UPDATE (R423). [log 120: DEDUCED] -/
def execFwUpdate (flashOk : Bool) (s : State) : Host.Outcome State Fault Refusal :=
  .next (s.serve 0x01 true fun p arg s =>
    match s.bufImage p arg 0 1 fwSlot with
    | .error e => e
    | .ok (img, s) => if imgSvn img < s.flash.fwSvnMin then (.format, 4, s) else s.fwWrite img flashOk)

/-- Bytes brought to a length. -/
def sized (n : Nat) (bs : List Byte) : List Byte := (bs ++ List.replicate n 0).take n

/-- A set of tiles or targets as a mask of n bytes. -/
def maskBytes (n : Nat) (ts : List Nat) : List Byte := natLe n (ts.eraseDups.foldl (fun m t => m + 2 ^ t) 0)

/-- The retired tiles. [log 121: DEDUCED] -/
def State.retiredTiles (s : State) : List Nat := (List.range 128).filter fun t => s.retired t

/-- Bytes [511:0] of a report with a nonce (R427). [log 121: DEDUCED] -/
def State.reportBody (s : State) (nonce : List Byte) : List Byte :=
  natLe 4 0x54525041 ++ natLe 4 1 ++ sized 32 nonce ++ digest (imgSigned s.fwRunning) ++
  (if s.applied.isSome then digest (imgSigned s.appliedImage) else List.replicate 32 0) ++ digest Config.fuses ++
  natLe 4 (imgVersion s.fwRunning) ++ natLe 4 (imgSvn s.fwRunning) ++ natLe 4 (s.reg 8).toNat ++
  natLe 4 s.flash.bootCount ++ natLe 24 Config.tileEnable.toNat ++ maskBytes 16 s.retiredTiles ++
  natLe 8 Config.serial.toNat ++ natLe 8 s.flash.sigIndex ++ sized 68 Config.devicePubkey ++ List.replicate 236 0

/-- ATTEST (R426, R427): the index is written to flash before the signature is released. -/
def execAttest (flashOk : Bool) (s : State) : Host.Outcome State Fault Refusal :=
  .next (s.serve 0x02 true fun p arg s =>
    match s.bufRead p arg 0 32 with
    | (.ok, nonce, s) =>
      let i := s.flash.sigIndex
      if 2 ^ 40 ≤ i then (.bounds, 5, s)
      else if !flashOk then (.bus, 6, s)
      else
        let body := s.reportBody nonce
        let s := { s with flash := { s.flash with sigIndex := i + 1 } }
        let (st, s) := s.bufWrite p arg 64 (body ++ sized 9893 (Config.identitySign i body))
        (st, 0, s)
    | (st, _, s) => (st, 0, s))

/-- The device certificate (R428). -/
def certificate : List Byte :=
  natLe 8 Config.serial.toNat ++ sized 68 Config.devicePubkey ++ [Config.certKey, 0, 0, 0] ++ sized 2820 Config.certSig

/-- CERT (R428). -/
def execCert (s : State) : Host.Outcome State Fault Refusal :=
  .next (s.serve 0x03 true fun p arg s =>
    let (st, s) := s.bufWrite p arg 64 certificate
    (st, 0, s))

/-! ### Recovery (R424, R425) -/

/-- A recovery command that is next in sequence order. [log 126: DEDUCED] -/
def State.recoveryCmd (s : State) (cid opc : Nat) : Option Cmd :=
  match s.cmds.find? fun c => c.engine == flintEngine && c.phase == .passed with
  | some c => if c.cid = cid ∧ c.opc = opc then some c else none
  | none => none

/-- Bytes of the slot with a run of them written; what the erased slot holds beyond reads as ones (log 22). -/
def patchAt (img : Image) (off : Nat) (bs : List Byte) : Image :=
  (img ++ List.replicate (off - img.length) 0xFF).take off ++ bs ++ img.drop (off + bs.length)

/-- RCV_LOAD (R425): bytes from the host go into the slot; the first load erases it.
[log 22: PRESUMED] [log 126: DEDUCED] -/
def execRcvLoad (cid : Nat) (host : HostReply) (flashOk : Bool) (s : State) : Host.Outcome State Fault Refusal :=
  .next (match s.recoveryCmd cid 0xE0 with
    | none => s
    | some c =>
      let off := bytesN c.bytes 43 40
      let n := bytesN c.bytes 47 44
      let port := if (s.port 0).released then 0 else 1
      if fwSlot < off + n then s.finish cid .bounds
      else if !s.hostReach port (s.cmdFunc c) then s.finish cid .bus
      else
        let s := (s.sendHost flintSrc port n true).emit
          (.hostRead (s.hostReq (s.cmdQueue cid) port (s.cmdFunc c) (bytesN c.bytes 39 32)) n)
        match host with
        | .busError => s.finish cid .bus
        | .data bs =>
          let old := if s.rcvErased then s.flash.fwImage else []
          let s := { s with rcvErased := true }
          if flashOk then ({ s with flash := { s.flash with
            fwImage := patchAt old off (sized n bs), fwValid := false } }).finish cid .ok
          else ({ s with flash := { s.flash with fwImage := old, fwValid := false } }).finish cid .bus)

/-- RCV_COMMIT (R425): the slot is checked under R422 and against the minimum, and VALID written. -/
def execRcvCommit (cid : Nat) (s : State) : Host.Outcome State Fault Refusal :=
  .next (match s.recoveryCmd cid 0xE1 with
    | none => s
    | some _ =>
      if imgOk s.flash.fwImage 1 fwSlot && decide (s.flash.fwSvnMin ≤ imgSvn s.flash.fwImage) then
        ({ s with flash := { s.flash with fwValid := true } }).finish cid .ok
      else s.finish cid .format)

end Sys2Proof.Machine
end

