-- ==== Sys2Proof/Machine/Pack.lean ====
section
/-! DEFINITION. Proof packs, their runs, the test chain, and retirement (R464 to R473). -/
namespace Sys2Proof.Machine

/-! ### Slots (R467 to R469, R473) -/

/-- The pack in a slot. -/
def State.packSlot? (s : State) (k : Nat) : Option PackSlot := tget (fun _ => none) s.flash.packs k

/-- The flash with a slot written. -/
def State.setPack (s : State) (k : Nat) (x : Option PackSlot) : State :=
  { s with flash := { s.flash with packs := tset (fun _ => none) s.flash.packs k x } }

/-- Whether the running run uses a slot. -/
def State.slotBusy (s : State) (k : Nat) : Bool :=
  match s.ppRun with
  | some r => r.slot == k
  | none => false

/-- PP_STORE (R473): the image is checked, the slot erased and written, and its VALID entry written last. -/
def execPpStore (flashOk : Bool) (s : State) : Host.Outcome State Fault Refusal :=
  .next (s.serve 0x10 true fun p arg s =>
    match s.bufRead p arg 0 64 with
    | (.ok, h, s) =>
      let k := byteAt h 0
      if 122 < k then (.bounds, 0, s)
      else if s.slotBusy k then (.bounds, 7, s)
      else match s.bufImage p arg 64 3 packSlot with
        | .error e => e
        | .ok (img, s) =>
          if flashOk then
            let b := imgBody img
            (.ok, 0, s.setPack k (some ⟨byteAt b 2, BitVec.ofNat 32 (bytesN b 7 4), img⟩))
          else (.bus, 6, s.setPack k none)
    | (st, _, s) => (st, 0, s))

/-- PP_ERASE (R469). [log 122: DEDUCED] -/
def execPpErase (flashOk : Bool) (s : State) : Host.Outcome State Fault Refusal :=
  .next (s.serve 0x14 false fun _ k s =>
    if 122 < k then (.bounds, 0, s)
    else if s.slotBusy k then (.bounds, 7, s)
    else if (s.packSlot? k).isNone then (.bounds, 9, s)
    else if flashOk then (.ok, 0, s.setPack k none) else (.bus, 6, s.setPack k none))

/-- The slot table's entries and the retirement list (R467, R469). [log 19: DESIGN CHOICE] -/
def State.packList (s : State) : List Byte :=
  ((List.range 123).map fun k => sized 64 (match s.packSlot? k with
    | some x => Config.slotEntry true x.kind x.packId (imgLen x.image)
    | none => Config.slotEntry false 0 0 0)).flatten ++ maskBytes 16 s.flash.retired

/-- PP_LIST (R469). -/
def execPpList (s : State) : Host.Outcome State Fault Refusal :=
  .next (s.serve 0x13 true fun p arg s =>
    let (st, s) := s.bufWrite p arg 64 s.packList
    (st, 0, s))

/-! ### Runs (R470 to R472) -/

/-- Whether a target of a kind lies in a partition (R31, R470); bits that stand for nothing lie in none.
[log 39: DEDUCED] -/
def State.targetIn (s : State) (kind part t : Nat) : Bool :=
  match kind with
  | 0 => decide (t < 128) && (!s.split || t / 64 == part)
  | 1 => decide (t < 8) && (!s.split || t / 4 == part)
  | 2 => decide (t < 4) && (!s.split || t == 0 || t == 3 || t == 1 + part)
  | _ => decide (t < 2) && (!s.split || t == part)

/-- The front end of a tile is held or released (R470). -/
def State.holdTile (s : State) (t : Nat) (b : Bool) : State := s.setTile t { s.tile t with ppHold := b }

/-- PP_RUN's work on a slot (R470). [log 119: DEDUCED] [log 123: DEDUCED] -/
def State.startRun (s : State) (p arg : Nat) (h : List Byte) : Status × Nat × State :=
  let k := byteAt h 0
  let ts := (List.range 128).filter fun t => bitN (bytesN h 31 16) t
  if 122 < k then (.bounds, 0, s)
  else if s.ppRun.isSome || flag (s.reg 0xA0010) 0 then (.bounds, 7, s)
  else match s.packSlot? k with
    | none => (.bounds, 9, s)
    | some x =>
      if !imgShape x.image 3 packSlot then (.format, 3, s)
      else if !imgSealed x.image then (.format, 2, s)
      else if decide (3 < x.kind) || (x.kind == 0) != (s.mode == .running) then (.bounds, 8, s)
      else if !ts.all (s.targetIn x.kind (s.portPart p)) then (.bounds, 0, s)
      else
        let r : PpRunSt :=
          { port := Fin.ofNat 2 p, buffer := 4096 * arg, slot := k, kind := x.kind, retireOnFail := bitN (byteAt h 1) 0
            clearOnPass := bitN (byteAt h 1) 1
            repairOk := bitN (byteAt h 1) 2 && bitN (byteAt (imgBody x.image) 3) 0
            targets := ts, ready := if x.kind = 0 then [] else ts, tested := [], failed := [], skipped := []
            retiredNow := [], cleared := [], repaired := [], ends := none }
        let s := if x.kind = 0 then ts.foldl (fun s t => s.holdTile t true) s else s
        (.ok, 0, ({ s with ppRun := some r }.putBit 0xA0010 1 true).putReg 0xA0010 8 2 k)

/-- PP_RUN (R470): the answer OK tells that the run has started. -/
def execPpRun (s : State) : Host.Outcome State Fault Refusal :=
  .next (s.serve 0x11 true fun p arg s =>
    match s.bufRead p arg 0 32 with
    | (.ok, h, s) => s.startRun p arg h
    | (st, _, s) => (st, 0, s))

/-- The run in progress ends at its next group boundary with a status. [log 124: DEDUCED] -/
def State.endRunWith (s : State) (st : Status) : State :=
  { s with ppRun := s.ppRun.map fun (r : PpRunSt) => { r with ends := firstSome r.ends (some st) } }

/-- PP_ABORT (R469). -/
def execPpAbort (s : State) : Host.Outcome State Fault Refusal :=
  .next (s.serve 0x12 false fun _ _ s => (.ok, 0, s.endRunWith .aborted))

/-- A held tile is ready (R470): no task, no queued command, no user channel that runs. -/
def State.targetReady (s : State) (t : Nat) : Bool :=
  let x := s.tile t
  x.bank0.phase == .free && x.bank1.phase == .free && x.launches.isEmpty && x.live.isEmpty &&
    (List.range 4).all fun n => !s.running (4 * t + n) && (s.chan (4 * t + n)).flight.isEmpty

/-- PP_TARGET_READY (R470): a held target becomes ready, or after 10 ms is skipped and released. -/
def execPpTargetReady (t : TileId) (timedOut : Bool) (s : State) : Host.Outcome State Fault Refusal :=
  .next (match s.ppRun with
    | none => s
    | some r =>
      if !r.targets.contains t.val || r.ready.contains t.val || r.skipped.contains t.val then s
      else if s.targetReady t then { s with ppRun := some { r with ready := r.ready ++ [t.val] } }
      else if timedOut then
        { s with ppRun := some { r with skipped := r.skipped ++ [t.val] } }.holdTile t false
      else s)

/-- A tile is reset after its scan (R470): its scratchpad is zeros, its registers but those of its suspect state are at
reset, its slots are empty, and its hold ends. [log 125: DEDUCED] -/
def State.resetTile (s : State) (t : Nat) : State :=
  let b := tileBase t
  let x := s.tile t
  let s := { s with mem := tclear s.mem (spBase t) spSize, ecc := tclear s.ecc (spBase t) spSize }
  let s := (List.range 4).foldl (fun s n => s.setChan (4 * t + n) Chan.reset) s
  ((s.resetRegs b 0x4000).resetRegs (b + 0x4028) 0xBFD8).setTile t
    { Tile.reset with applied := x.applied, retireReq := x.retireReq }

/-- A tile is retired (R464, R465): shown, and kept on the list in flash. -/
def State.retireTile (s : State) (t : Nat) : State :=
  let l := s.flash.retired
  { s with flash := { s.flash with retired := if l.contains t then l else l ++ [t] } }.markRetired t true

/-- One target has been scanned (R470, R471): it passed or failed. -/
def State.scanned (s : State) (r : PpRunSt) (passed : BitVec 128) (t : Nat) : PpRunSt × State :=
  let ok := passed.toNat.testBit t
  let r := { r with tested := r.tested ++ [t] }
  let s := if r.kind = 0 then s.resetTile t else s
  if ok then
    if r.kind = 0 ∧ r.clearOnPass = true ∧ t ∈ s.flash.retired then
      ({ r with cleared := r.cleared ++ [t] },
        { s with flash := { s.flash with retired := s.flash.retired.filter (· != t) } })
    else (r, s)
  else
    let r := { r with failed := r.failed ++ [t] }
    let s := s.count 0xA0018 1
    if r.kind = 0 ∧ r.retireOnFail = true then ({ r with retiredNow := r.retiredNow ++ [t] }, s.retireTile t) else (r, s)

/-- A group of targets has been scanned. -/
def State.scanAll (s : State) (r : PpRunSt) (passed : BitVec 128) : List Nat → PpRunSt × State
  | [] => (r, s)
  | t :: rest =>
    let (r, s) := s.scanned r passed t
    s.scanAll r passed rest

/-- Hard repair (R472): the rows of the repair logs of the tested stacks are repaired and leave the logs. -/
def State.hardRepair (s : State) (ts : List Nat) : State :=
  ts.foldl (fun s st => s.setStack st { s.stack st with repairLog := [] }) s

/-- The result record (R471). -/
def resultRecord (r : PpRunSt) (st : Status) (packId : BitVec 32) (millis : Nat) : List Byte :=
  natLe 1 st.code ++ natLe 1 1 ++ natLe 1 r.slot ++ natLe 1 r.kind ++ natLe 4 packId.toNat ++ natLe 4 millis ++ natLe 4 0 ++
  maskBytes 16 r.tested ++ maskBytes 16 r.failed ++ maskBytes 16 r.skipped ++ maskBytes 16 r.retiredNow ++
  maskBytes 16 r.cleared ++ ((List.range 8).map fun i => natLe 2 (r.repaired.getD i 0)).flatten ++ List.replicate 16 0

/-- The run ends (R470, R471): holds end, the record is written at the buffer and into the log of the last 1,024, and
the requesting port hears of it. -/
def State.endRun (s : State) (r : PpRunSt) (st : Status) (millis : Nat) : State :=
  let left := r.targets.filter fun t => !r.tested.contains t && !r.skipped.contains t
  let r := { r with skipped := r.skipped ++ left }
  let s := if r.kind = 0 then left.foldl (fun s t => s.holdTile t false) s else s
  let packId := match s.packSlot? r.slot with
    | some x => x.packId
    | none => 0
  let bs := resultRecord r st packId millis
  let s := (s.bufWrite r.port (r.buffer / 4096) 64 bs).2
  let log := s.flash.results ++ [bs]
  let s := { s with ppRun := none, flash := { s.flash with results := log.drop (log.length - 1024) } }
  let s := (s.count 0xA0014 1).putBit 0xA0010 1 false
  if s.flintReaches r.port then s.flintSend r.port (BitVec.ofNat 32 (0x03000000 + r.slot)) else s

/-- PP_GROUP_SCAN (R470 to R472): the next group of up to 8 ready targets, in rising order, is scanned, reset and
released; the run ends when no target is left, or at once where something has ended it. `passed` are the targets whose
signature is the expected one, `repaired` rows hard-repaired per stack, `millis` the time since the run's start.
[log 124: DEDUCED] -/
def execPpGroupScan (passed : BitVec 128) (repaired : List TileId) (millis : Nat) (s : State) :
    Host.Outcome State Fault Refusal :=
  .next (match s.ppRun with
    | none => s
    | some r => match r.ends with
      | some st => s.endRun r st millis
      | none =>
        let group := (r.targets.filter fun t => r.ready.contains t && !r.tested.contains t).take 8
        let (r, s) := s.scanAll r passed group
        let (r, s) := if r.kind = 1 ∧ r.repairOk = true then
          ({ r with repaired := repaired.map fun (t : TileId) => t.val }, s.hardRepair group) else (r, s)
        if r.targets.all fun t => r.tested.contains t || r.skipped.contains t then s.endRun r .ok millis
        else { s with ppRun := some r })

/-! ### The test chain (R466) -/

/-- EXTERNAL_PORT_OWN (R466): TRST# goes high, and a run in progress ends at its next group boundary. -/
def execExternalPortOwn (s : State) : Host.Outcome State Fault Refusal :=
  .next ((s.putBit 0xA0010 0 true).endRunWith .aborted)

/-- EXTERNAL_PORT_RELEASE (R466): TRST# goes low. -/
def execExternalPortRelease (s : State) : Host.Outcome State Fault Refusal := .next (s.putBit 0xA0010 0 false)

/-! ### Retirement (R464) -/

/-- RETIRE (R464): a kernel-path write of RETIRE. -/
def execRetire (path : Path) (t : TileId) (s : State) : Host.Outcome State Fault Refusal :=
  .next (s.kernelWrite path (tileBase t + 0x400C) fun o s =>
    let k := (o - 0x1000000) / 0x10000
    s.setTile k { s.tile k with retireReq := true })

/-- Whether a tile has no command in flight: no task that issues or has ended, and no command of its units.
[log 136: DEDUCED] -/
def Tile.quiet (x : Tile) : Bool :=
  let holds := fun (b : Bank) => b.phase == .issuing || b.phase == .ended
  !holds x.bank0 && !holds x.bank1 && x.live.isEmpty

/-- RETIREMENT (R464): launches that have not started complete with CHK, the user channels stop, and RETIRED is set.
[log 136: DEDUCED] -/
def execRetirement (t : TileId) (s : State) : Host.Outcome State Fault Refusal :=
  let x := s.tile t
  .next (if x.retireReq && !s.retired t && x.quiet && s.tileOn t then
      let waiting := x.launches ++ ([x.bank0, x.bank1].filter fun (b : Bank) => b.phase != .free).map fun (b : Bank) => b.cid
      let s := waiting.foldl (fun s cid => s.finish cid .chk) s
      let s := s.setTile t { x with bank0 := Bank.reset, bank1 := Bank.reset, launches := [] }
      let s := (List.range 4).foldl (fun s n => s.putBit (chanReg (4 * t + n) 0x14) 0 false) s
      s.retireTile t
    else s)

end Sys2Proof.Machine
end

