-- ==== Sys2Proof/Machine/Vector.lean ====
section
/-! DEFINITION. The vector unit (R76, R217 to R226, R230, R231, R236, R238, R239). -/
namespace Sys2Proof.Machine

/-! ### Shapes and extents (R218, R220, R222, R224, R226, R228, R236) -/

/-- Chunks of one row: a tile row is one chunk (R224). -/
def VPlate.rowChunks (p : VPlate) : Nat := if p.accX then 1 else ceilDiv p.cols 128

/-- Chunks of a command; the read of a table record counts as the one event of a VOP.TLOAD. -/
def chunkCount (op : VOp) (p : VPlate) : Nat := if op = .tload then 1 else p.rows * p.rowChunks

/-- Blocks of one row. -/
def VPlate.blocks (p : VPlate) : Nat := ceilDiv p.cols 32

/-- Whether X and D carry block scales (R60, R218). D's flag decides for a VOP.CVT of a tile too.
[log 147: DEDUCED] -/
def VPlate.xScaled (p : VPlate) : Bool := !p.accX && carriesScale p.fmtX p.scaledX
def VPlate.dScaled (p : VPlate) : Bool := carriesScale p.fmtD p.scaledD

/-- Whether an operation reads Y (R211). -/
def VOp.readsY : VOp → Bool
  | .add | .mul | .fma | .axpy | .max | .min | .dsten => true
  | _ => false

/-- Whether an operation is a reduction. -/
def VOp.reduces : VOp → Bool
  | .rsum | .rmax | .sent => true
  | _ => false

/-- Whether the residue of R238 checks an operation. -/
def VOp.residue : VOp → Bool
  | .add | .mul | .fma | .axpy | .rsum | .sten | .dsten => true
  | _ => false

/-- Elements of one row of D in memory: the last block of a scaled D is stored at full size (R61). -/
def VPlate.dCols (p : VPlate) : Nat := if p.dScaled then 32 * p.blocks else p.cols

/-- Extents of a vector command (R226). -/
def vopExtents (op : VOp) (p : VPlate) : List (Nat × Nat) :=
  if op = .tload then [(p.xBase, 64)] else
  (if p.accX then [tileRange p.xBase]
   else lastRow p.xBase p.xStride p.rows (elemBytes (fmtBits p.fmtX) p.cols) ::
     (if p.xScaled then [(p.xsBase, p.rows * p.blocks)] else [])) ++
  (if op.readsY then [lastRow p.yBase p.yStride p.rows (elemBytes (fmtBits p.fmtY) p.cols)] else []) ++
  (match op with
    | .rsum => [(p.dBase, 4 * p.rows)]
    | .rmax => [(p.dBase, 4 * p.rows)]
    | .sent => [(p.dBase, 16 + 4 * (p.rows * p.blocks))]
    | _ =>
      if p.fmtD = 10 then [lastRow p.dBase p.dStride p.rows (p.blocks * recBytes p.depth)]
      else lastRow p.dBase p.dStride p.rows (elemBytes (fmtBits p.fmtD) p.dCols) ::
        (if p.dScaled then [(p.dsBase, p.rows * p.blocks)] else []))

/-! ### Start (R175, R224, R226, R231, R248) -/

/-- A command in flight before its first chunk. −0 is the neutral start of a row's exact sum (R219, R222). -/
def VRun.start (c : QCmd) : VRun :=
  { cmd := c, cycle := 0, entered := 0, pend := [], acc := .fin true 0 0, peak := .zero, words := [], peakAll := .zero
    stop := none, abortReq := false, res := .ok, slotRec := none, finished := false }

/-- The operation and plate of a vector command. -/
def QCmd.vplate (c : QCmd) : Option (VOp × VPlate) :=
  match c.work with
  | .vop op p => some (op, p)
  | _ => none

/-- How a vector command starts (R221, R224, R226): at once finished where it has no work, is out of bounds, or names
a tile whose header is unreadable or holds a fault. -/
def State.vstart (s : State) (t : Nat) (c : QCmd) (op : VOp) (p : VPlate) : VRun × State :=
  let r := VRun.start c
  if op != .tload && (p.rows == 0 || p.cols == 0) then ({ r with finished := true }, s)
  else if !(vopExtents op p).all fits then ({ r with finished := true, res := .bounds }, s)
  else if p.accX && op != .tload then
    let (bad, s) := s.spCheck t (p.xBase + 0x10400) 64
    let h := hdrOf (s.sp t (p.xBase + 0x10400) 64)
    if bad then ({ r with finished := true, res := .memUe }, s)
    else if h.fault ≠ 0 then ({ r with finished := true, res := Status.ofCode h.fault }, s)
    else (r, s)
  else (r, s)

/-- VECTOR_COMMAND_START (R175): the examination of queue V's head in one cycle; a held cycle counts in TILE_VU_STALL,
also while the unit is busy (R137), or as event wait where only the event holds it (R179). -/
def execVectorCommandStart (t : TileId) (s : State) : Host.Outcome State Fault Refusal :=
  .next (
    let x := s.tile t
    match x.vq with
    | [] => s
    | c :: rest =>
      if !s.tileOn t then s
      else if x.headHeld c then s.count64 (tileBase t + 0x1010) 1
      else if x.vrun.isSome then s
      else if !s.waitMet t c then s.count64 (tileBase t + 0x60) 1
      else match c.vplate with
        | none => s.setTile t { x with vq := rest }
        | some (op, p) =>
          let (r, s) := s.vstart t c op p
          s.setTile t { s.tile t with vq := rest, vrun := some r })

/-! ### Operands of a chunk (R218, R221, R225) -/

/-- Row, first column and elements of chunk j. -/
def vecChunk (p : VPlate) (j : Nat) : Nat × Nat × Nat :=
  let c0 := if p.accX then 0 else j % p.rowChunks * 128
  (j / p.rowChunks, c0, if p.accX then p.cols else min 128 (p.cols - c0))

/-- Bytes that a chunk reads. -/
def chunkRuns (op : VOp) (p : VPlate) (r c0 n : Nat) : List (Nat × Nat) :=
  (if p.accX then [(p.xBase + 1024 * r, 16 * n), (p.xBase + 0x10000 + 16 * r, ceilDiv n 4)]
   else (p.xBase + r * p.xStride + elemByte (fmtBits p.fmtX) c0, elemBytes (fmtBits p.fmtX) n) ::
     (if p.xScaled then [(p.xsBase + r * p.blocks + c0 / 32, ceilDiv n 32)] else [])) ++
  (if op.readsY then [(p.yBase + r * p.yStride + elemByte (fmtBits p.fmtY) c0, elemBytes (fmtBits p.fmtY) n)] else []) ++
  (if op = .fma then [(p.dBase + r * p.dStride + elemByte (fmtBits p.fmtD) c0, elemBytes (fmtBits p.fmtD) n)] else []) ++
  (if p.dScaled && p.given && !op.reduces then [(p.dsBase + r * p.blocks + c0 / 32, ceilDiv n 32)] else [])

/-- X element (r, c) as its exact value (R218, R221). -/
def State.xValue (s : State) (t : Nat) (p : VPlate) (r c : Nat) : XReal :=
  if p.accX then
    let rd := fun i => s.byte (spBase t + p.xBase + i)
    drainY (tileElem rd (64 * r + c)) (tileTag rd (64 * r + c)) (hdrOf (s.sp t (p.xBase + 0x10400) 64)).anchor p.c
      0x3F800000
  else
    let code := s.spElem t (p.xBase + r * p.xStride) (fmtBits p.fmtX) c
    scaledElem p.fmtX code (if p.xScaled then s.spNum t (p.xsBase + r * p.blocks + c / 32) 1 else 127)

/-- T2 codes 0b10 in a chunk of X (R218). -/
def State.xBad (s : State) (t : Nat) (p : VPlate) (r c0 n : Nat) : Nat :=
  if p.fmtX = 5 then ((span c0 n).filter fun c => s.spElem t (p.xBase + r * p.xStride) 2 c == 2).length else 0

/-- An element of Y or of D as an operand. -/
def State.wideValue (s : State) (t base fmt c : Nat) : XReal := decodeElem fmt (s.spElem t base (fmtBits fmt) c)

/-- The exact result of a lane (R219). -/
def State.lane (s : State) (t : Nat) (op : VOp) (p : VPlate) (r c : Nat) : XReal :=
  let x := s.xValue t p r c
  let y := s.wideValue t (p.yBase + r * p.yStride) p.fmtY c
  match op with
  | .add => x.add y
  | .mul => x.mul y
  | .fma => (x.mul y).add (s.wideValue t (p.dBase + r * p.dStride) p.fmtD c)
  | .axpy => ((fp32 p.c).mul x).add y
  | .max => x.max y
  | .min => x.min y
  | .sten => (s.tile t).stencil p.stencil false (toFp32 .rne x)
  | .dsten => derivProduct y ((s.tile t).stencil p.stencil true (toFp32 .rne x))
  | _ => x

/-! ### W records (R76, R81) -/

/-- floor(|x| / 2^e) of a finite value, with its sign. -/
def truncUnits (x : XReal) (e : Int) : Int :=
  match x with
  | .fin n m k => if n then -Int.ofNat (floorUnits (.fin false m k) e) else Int.ofNat (floorUnits (.fin false m k) e)
  | _ => 0

/-- The tag of a position (R76). -/
def wTag (x : XReal) : Nat :=
  match x with
  | .fin _ _ _ => 0
  | .inf false => 1
  | .inf true => 2
  | .nan => 3

/-- The greatest of a list of integers. -/
def maxInt (l : List Int) : Option Int := (minInt (l.map fun a => -a)).map fun a => -a

/-- The W record of a block of at most 32 elements at depth d (R76, R81). -/
def wRecord (d : Nat) (xs : List XReal) : List Byte :=
  let e := maxInt ((xs.filter fun x => x.isFin && !x.isZero).map (·.log2))
  let xe := e.getD 0
  let qs := xs.map fun x => truncUnits x (xe + 1 - 7 * Int.ofNat d)
  let slice := fun (k : Nat) => (List.range 32).map fun i =>
    let q := qs.getD i 0 / 2 ^ (7 * (d - k))
    BitVec.ofNat 8 (if k = 1 then unsigned 8 q else (q % 128).toNat)
  natLe 2 (unsigned 16 xe) ++ [BitVec.ofNat 8 d, if e.isNone then 1 else 0, 0, 0, 0, 0] ++
    natLe 8 ((xs.map wTag).foldr (fun g acc => g + 4 * acc) 0) ++ (span 1 d).flatMap slice

/-! ### Results of a chunk (R220, R222, R236) -/

/-- What a chunk of a scaled D writes: each block's codes, padded to full size, and its scale byte (R61, R67, R73, R74). -/
def State.scaledWrites (s : State) (t : Nat) (p : VPlate) (r c0 : Nat) (qs : List (QReal × Rnd)) : VPend :=
  let nb := ceilDiv qs.length 32
  let so := p.dsBase + r * p.blocks + c0 / 32
  let os := (List.range nb).map fun b =>
    convBlock p.fmtD (if p.given then some (s.spNum t (so + b) 1) else none) ((qs.drop (32 * b)).take 32)
  let pad := fun (cs : List Nat) => cs ++ List.replicate (32 - cs.length) 0
  { chunk := 0
    writes := (p.dBase + r * p.dStride + elemByte (fmtBits p.fmtD) c0,
        packCodes (fmtBits p.fmtD) (os.flatMap fun o => pad o.codes)) ::
      (os.zipIdx.filter fun o => !p.given || o.1.scale == 255).map fun o => (so + o.2, [BitVec.ofNat 8 o.1.scale])
    sats := (os.map (·.sats)).sum
    nans := (os.filter (·.nan)).length }

/-- What a chunk of an element-wise operation writes (R220). -/
def State.elementWrites (s : State) (t : Nat) (p : VPlate) (r c0 : Nat) (vs : List XReal) : VPend :=
  if p.fmtD = 10 then
    { chunk := 0, sats := 0, nans := 0
      writes := (List.range (ceilDiv vs.length 32)).map fun b =>
        (p.dBase + r * p.dStride + (c0 / 32 + b) * recBytes p.depth, wRecord p.depth ((vs.drop (32 * b)).take 32)) }
  else
    let qs := vs.zipIdx.map fun (v, i) => (dstQuot v p.tdst, rndOf p.rnd p.seed p.tid (r * p.cols + c0 + i))
    if p.dScaled then s.scaledWrites t p r c0 qs
    else
      let os := qs.map fun q => convElem p.fmtD false q.2 q.1
      { chunk := 0, nans := 0, sats := (os.filter (·.sat)).length
        writes := [(p.dBase + r * p.dStride + elemByte (fmtBits p.fmtD) c0,
          packCodes (fmtBits p.fmtD) (os.map (·.code)))] }

/-- The maxima of the blocks of a chunk's values (R236). -/
def blockMax (vs : List XReal) : BitVec 32 :=
  if vs.all (·.isFin) then columnMax vs else 0x7FC00000

/-- What a chunk of a reduction makes of the running values, and writes with a row's, or the region's, last chunk
(R222, R236). -/
def reduceChunk (op : VOp) (p : VPlate) (run : VRun) (j r c0 : Nat) (vs : List XReal) : VRun × VPend :=
  let lastOfRow := decide (p.cols ≤ c0 + vs.length)
  let none_ : VPend := ⟨j, [], 0, 0⟩
  match op with
  | .rsum =>
    let a := vs.foldl XReal.add run.acc
    if lastOfRow then ({ run with acc := .fin true 0 0 },
      { none_ with writes := [(p.dBase + 4 * r, natLe 4 (toFp32 (rndOf p.rnd p.seed p.tid r) a).toNat)] })
    else ({ run with acc := a }, none_)
  | .rmax =>
    let m := (vs.map XReal.abs).foldl XReal.max run.peak
    if lastOfRow then ({ run with peak := .zero },
      { none_ with writes := [(p.dBase + 4 * r, natLe 4 (sentinel32 m).toNat)] })
    else ({ run with peak := m }, none_)
  | _ =>
    let ws := run.words ++ (List.range (ceilDiv vs.length 32)).map fun b => blockMax ((vs.drop (32 * b)).take 32)
    let m := ((vs.filter (·.isFin)).map XReal.abs).foldl XReal.max run.peakAll
    ({ run with words := ws, peakAll := m },
      if j + 1 = chunkCount op p then
        { none_ with writes := [(p.dBase, natLe 4 (sentinel32 m).toNat ++ natLe 12 0 ++
          ws.flatMap fun w => natLe 4 w.toNat)] }
      else none_)

/-- The chunk that enters: what it will write. A VOP.CVT of a tile keeps the largest |y| for SENTINEL (R111, R221). -/
def State.chunkWork (s : State) (t : Nat) (op : VOp) (p : VPlate) (run : VRun) : VRun × VPend :=
  let (r, c0, n) := vecChunk p run.entered
  let vs := (span c0 n).map fun c => s.lane t op p r c
  if op.reduces then reduceChunk op p run run.entered r c0 vs
  else
    let w := s.elementWrites t p r c0 vs
    if p.accX then
      ({ run with peakAll := ((vs.filter (·.isFin)).map XReal.abs).foldl XReal.max run.peakAll }, w)
    else (run, w)

/-! ### Rows -/

/-- The read of a table record (R230): the record for its slot, an empty slot for an invalid one or after an error.
[log 40: DEDUCED] -/
def State.tableRead (s : State) (t : Nat) (p : VPlate) (run : VRun) (bus : Bool) : State :=
  let put := fun (s : State) (r : VRun) => s.setTile t { s.tile t with vrun := some r }
  let (bad, s) := s.spCheck t p.xBase 64
  if bus || bad then
    put s { run with entered := 1, stop := some (if bus then .bus else .memUe), slotRec := some []
                     res := run.res.merge (if bus then .bus else .memUe) }
  else
    let n := recLength (s.sp t p.xBase 64)
    if !fits (p.xBase, n) then put s { run with entered := 1, stop := some .bounds, res := run.res.merge .bounds }
    else
      let (bad, s) := s.spCheck t (p.xBase + 64) (n - 64)
      let bs := s.sp t p.xBase n
      if bad then put s { run with entered := 1, stop := some .memUe, slotRec := some [], res := run.res.merge .memUe }
      else if recValid bs then put s { run with entered := 1, slotRec := some bs }
      else put (s.count (tileBase t + 0x1024) 1) { run with entered := 1, slotRec := some [] }

/-- A chunk enters with its reads and its residue check done (R225, R226, R239). -/
def State.chunkEnter (s : State) (t : Nat) (op : VOp) (p : VPlate) (run : VRun) (resFail bus : Bool) : State :=
  let put := fun (s : State) (r : VRun) => s.setTile t { s.tile t with vrun := some r }
  let (r, c0, n) := vecChunk p run.entered
  let (bad, s) := s.spCheckAll t (chunkRuns op p r c0 n)
  let s := (s.count64 (tileBase t + 0x1008) 1).count (tileBase t + 0x1020) (s.xBad t p r c0 n)
  if bus || bad then
    let st := if bus then Status.bus.merge (if bad then .memUe else .bus) else .memUe
    put s { run with entered := run.entered + 1, stop := some st, res := run.res.merge st }
  else if resFail && op.residue then
    put ((s.count (tileBase t + 0x1028) 1).putBit (tileBase t + 0x1000) 1 true)
      { run with entered := run.entered + 1, stop := some .chk, res := run.res.merge .chk }
  else
    let (run', w) := s.chunkWork t op p run
    put s { run' with entered := run.entered + 1, pend := run.pend ++ [{ w with chunk := run.entered }] }

/-- VECTOR_CHUNK (R217, R224): the next chunk enters, unless the governor gates the cycle; the loss counts in
TILE_VU_STALL. [log 28: DESIGN CHOICE] [log 40: DEDUCED] -/
def execVectorChunk (t : TileId) (resFail bus : Bool) (s : State) : Host.Outcome State Fault Refusal :=
  .next (
    let x := s.tile t
    match if s.tileOn t then x.vrun else none with
    | none => s
    | some run => match run.cmd.vplate with
      | none => s
      | some (op, p) =>
        if run.finished || run.stop.isSome || run.abortReq || decide (chunkCount op p ≤ run.entered) ||
            !s.portFree t [vecPort 0, vecPort 1, vecPort 2] then s
        else
          let run := { run with cycle := run.cycle + 1 }
          if !dutyOpen (s.level 0 (tileDie t)) run.cycle then
            (s.setTile t { x with vrun := some run }).count64 (tileBase t + 0x1010) 1
          else if op = .tload then s.tableRead t p run bus
          else s.chunkEnter t op p run resFail bus)

/-- VECTOR_CHUNK_WRITE (R224): the oldest chunk that has entered is written and its conversions are counted (R71).
[log 28: DESIGN CHOICE] -/
def execVectorChunkWrite (t : TileId) (s : State) : Host.Outcome State Fault Refusal :=
  .next (
    let x := s.tile t
    match if s.tileOn t && s.portFree t [vecPort 3] then x.vrun else none with
    | none => s
    | some run => match run.pend with
      | [] => s
      | w :: rest =>
        let s := w.writes.foldl (fun s e => s.spWrite t e.1 e.2) s
        let s := (s.count (tileBase t + 0x1018) w.sats).count (tileBase t + 0x101C) w.nans
        s.setTile t { s.tile t with vrun := some { run with pend := rest } })

/-- The status of a vector command at its end: an abort gives ABORTED, also after the last chunk has entered (R226); a
drained tile gives SAT or INEXACT (R221). -/
def State.vstatus (s : State) (t : Nat) (run : VRun) (op : VOp) (p : VPlate) : Status :=
  if run.finished || run.stop.isSome then run.res
  else if run.abortReq then run.res.merge .aborted
  else if p.accX && op == .cvt then
    let h := hdrOf (s.sp t (p.xBase + 0x10400) 64)
    run.res.merge (stickyStatus h.sat h.inexact)
  else run.res

/-- The header write of a VOP.CVT of a tile: SENTINEL, once every row is converted; not after an error or an abort
(R111, R221, R226). -/
def State.vheader (s : State) (t : Nat) (run : VRun) (op : VOp) (p : VPlate) : State :=
  if p.accX && op == .cvt && !run.finished && run.stop.isNone && !run.abortReq then
    s.spWrite t (p.xBase + 0x10404) (natLe 4 (sentinel32 run.peakAll).toNat)
  else s

/-- VECTOR_COMMAND_RETIRE (R224, R230): once every chunk that entered is written; the header of a drained tile is
written, and a table record reaches its slot unless the command was aborted (R226). -/
def execVectorCommandRetire (t : TileId) (s : State) : Host.Outcome State Fault Refusal :=
  .next (
    let x := s.tile t
    match if s.tileOn t then x.vrun else none with
    | none => s
    | some run => match run.cmd.vplate with
      | none => s
      | some (op, p) =>
        if run.finished || (run.pend.isEmpty && s.portFree t [vecPort 4] && (run.stop.isSome || run.abortReq ||
            decide (chunkCount op p ≤ run.entered))) then
          let st := s.vstatus t run op p
          let slots := match if run.abortReq && run.stop.isNone then none else run.slotRec with
            | some bs => tset (fun _ => []) x.slots (p.stencil - 128) bs
            | none => x.slots
          let s := (s.vheader t run op p).setTile t { x with vrun := none, slots := slots }
          (s.putReg (tileBase t + 0x1000) 9 2 st.code).retire t run.cmd st .vector
        else s)

end Sys2Proof.Machine
end

