-- ==== Sys2Proof/Machine/Dispatch.lean ====
section
/-! DEFINITION. One arm per command: each calls its meaning, or refuses by name what has none yet. -/
namespace Sys2Proof.Machine

/-- What a command does to everything but the queue of waiting commands. [log 9: DESIGN CHOICE] -/
def exec (i : Instr) (s : State) : Host.Outcome State Fault Refusal :=
  match i with
  | .powerTrip cause => Sys2Proof.Machine.execPowerTrip cause s
  | .governorSample watts tenthVolts temps => Sys2Proof.Machine.execGovernorSample watts tenthVolts temps s
  | .governorStep => Sys2Proof.Machine.execGovernorStep s
  | .restore => Sys2Proof.Machine.execRestore s
  | .pwrProfileWrite path v => Sys2Proof.Machine.execPwrProfileWrite path v s
  | .pwrCapWrite path v => Sys2Proof.Machine.execPwrCapWrite path v s
  | .clockLoss domain => Sys2Proof.Machine.execClockLoss domain s
  | .seamReplay seam keepsFailing => Sys2Proof.Machine.execSeamReplay seam keepsFailing s
  | .bundleNop t parity => Sys2Proof.Machine.execBundleNop t parity s
  | .endTask t parity => Sys2Proof.Machine.execEndTask t parity s
  | .br t parity => Sys2Proof.Machine.execBr t parity s
  | .loopSet t parity => Sys2Proof.Machine.execLoopSet t parity s
  | .loopEnd t parity => Sys2Proof.Machine.execLoopEnd t parity s
  | .rep t parity => Sys2Proof.Machine.execRep t parity s
  | .cmpSet t parity => Sys2Proof.Machine.execCmpSet t parity s
  | .cntSet t parity => Sys2Proof.Machine.execCntSet t parity s
  | .scAdd t parity => Sys2Proof.Machine.execScAdd t parity s
  | .scSub t parity => Sys2Proof.Machine.execScSub t parity s
  | .scMul t parity => Sys2Proof.Machine.execScMul t parity s
  | .scAnd t parity => Sys2Proof.Machine.execScAnd t parity s
  | .scOr t parity => Sys2Proof.Machine.execScOr t parity s
  | .scXor t parity => Sys2Proof.Machine.execScXor t parity s
  | .scShl t parity => Sys2Proof.Machine.execScShl t parity s
  | .scShr t parity => Sys2Proof.Machine.execScShr t parity s
  | .scSra t parity => Sys2Proof.Machine.execScSra t parity s
  | .scMin t parity => Sys2Proof.Machine.execScMin t parity s
  | .scMax t parity => Sys2Proof.Machine.execScMax t parity s
  | .scMinu t parity => Sys2Proof.Machine.execScMinu t parity s
  | .scMaxu t parity => Sys2Proof.Machine.execScMaxu t parity s
  | .scSlt t parity => Sys2Proof.Machine.execScSlt t parity s
  | .scSltu t parity => Sys2Proof.Machine.execScSltu t parity s
  | .scMovi t parity => Sys2Proof.Machine.execScMovi t parity s
  | .scMovhi t parity => Sys2Proof.Machine.execScMovhi t parity s
  | .scMova t parity => Sys2Proof.Machine.execScMova t parity s
  | .scMovc t parity => Sys2Proof.Machine.execScMovc t parity s
  | .agAdd t hi parity => Sys2Proof.Machine.execAgAdd t hi parity s
  | .agSet t hi parity => Sys2Proof.Machine.execAgSet t hi parity s
  | .agDset t hi parity => Sys2Proof.Machine.execAgDset t hi parity s
  | .agMov t hi parity => Sys2Proof.Machine.execAgMov t hi parity s
  | .agDmov t hi parity => Sys2Proof.Machine.execAgDmov t hi parity s
  | .agInc t hi parity => Sys2Proof.Machine.execAgInc t hi parity s
  | .mmF t hi parity => Sys2Proof.Machine.execMmF t hi parity s
  | .mmDx t parity => Sys2Proof.Machine.execMmDx t parity s
  | .mmDw t parity => Sys2Proof.Machine.execMmDw t parity s
  | .accInit t hi parity => Sys2Proof.Machine.execAccInit t hi parity s
  | .accDrain t hi parity => Sys2Proof.Machine.execAccDrain t hi parity s
  | .vopCvt t parity => Sys2Proof.Machine.execVopCvt t parity s
  | .vopAdd t parity => Sys2Proof.Machine.execVopAdd t parity s
  | .vopMul t parity => Sys2Proof.Machine.execVopMul t parity s
  | .vopFma t parity => Sys2Proof.Machine.execVopFma t parity s
  | .vopAxpy t parity => Sys2Proof.Machine.execVopAxpy t parity s
  | .vopMax t parity => Sys2Proof.Machine.execVopMax t parity s
  | .vopMin t parity => Sys2Proof.Machine.execVopMin t parity s
  | .vopSten t parity => Sys2Proof.Machine.execVopSten t parity s
  | .vopDsten t parity => Sys2Proof.Machine.execVopDsten t parity s
  | .vopRsum t parity => Sys2Proof.Machine.execVopRsum t parity s
  | .vopRmax t parity => Sys2Proof.Machine.execVopRmax t parity s
  | .vopSent t parity => Sys2Proof.Machine.execVopSent t parity s
  | .vopTload t parity => Sys2Proof.Machine.execVopTload t parity s
  | .dmaLds t parity => Sys2Proof.Machine.execDmaLds t parity s
  | .dmaSts t parity => Sys2Proof.Machine.execDmaSts t parity s
  | .scalarGrant t => Sys2Proof.Machine.execScalarGrant t s
  | .dmaXfer t parity => Sys2Proof.Machine.execDmaXfer t parity s
  | .synEvset t parity => Sys2Proof.Machine.execSynEvset t parity s
  | .synWaitl t parity => Sys2Proof.Machine.execSynWaitl t parity s
  | .synSignal t parity => Sys2Proof.Machine.execSynSignal t parity s
  | .synWaitge t parity => Sys2Proof.Machine.execSynWaitge t parity s
  | .synCset t parity => Sys2Proof.Machine.execSynCset t parity s
  | .dmQueueHeadStart t => Sys2Proof.Machine.execDmQueueHeadStart t s
  | .waitgeRelease t => Sys2Proof.Machine.execWaitgeRelease t s
  | .matrixCommandStart t u => Sys2Proof.Machine.execMatrixCommandStart t u s
  | .stationaryLoadDone t u => Sys2Proof.Machine.execStationaryLoadDone t u s
  | .streamLoadDone t u => Sys2Proof.Machine.execStreamLoadDone t u s
  | .anchorScanDone t u => Sys2Proof.Machine.execAnchorScanDone t u s
  | .headerCycle t u => Sys2Proof.Machine.execHeaderCycle t u s
  | .windowFill t u => Sys2Proof.Machine.execWindowFill t u s
  | .matrixPipelineCycle t u fail => Sys2Proof.Machine.execMatrixPipelineCycle t u fail s
  | .windowSpill t u resFail => Sys2Proof.Machine.execWindowSpill t u resFail s
  | .drainColumn t u dupFail => Sys2Proof.Machine.execDrainColumn t u dupFail s
  | .stagingBlockWrite t u => Sys2Proof.Machine.execStagingBlockWrite t u s
  | .zHalfBlockLoad t bus => Sys2Proof.Machine.execZHalfBlockLoad t bus s
  | .sweepBoundaryAbort t u => Sys2Proof.Machine.execSweepBoundaryAbort t u s
  | .matrixCommandRetire t u => Sys2Proof.Machine.execMatrixCommandRetire t u s
  | .allFwdWrite path t v => Sys2Proof.Machine.execAllFwdWrite path t v s
  | .modeSwitch t => Sys2Proof.Machine.execModeSwitch t s
  | .launch cid => Sys2Proof.Machine.execLaunch cid s
  | .preloadComplete t bus => Sys2Proof.Machine.execPreloadComplete t bus s
  | .taskSwitch t => Sys2Proof.Machine.execTaskSwitch t s
  | .taskComplete t => Sys2Proof.Machine.execTaskComplete t s
  | .imemHostWrite path off bytes => Sys2Proof.Machine.execImemHostWrite path off bytes s
  | .tileEvWrite path t n v => Sys2Proof.Machine.execTileEvWrite path t n v s
  | .vectorCommandStart t => Sys2Proof.Machine.execVectorCommandStart t s
  | .vectorChunk t resFail bus => Sys2Proof.Machine.execVectorChunk t resFail bus s
  | .vectorChunkWrite t => Sys2Proof.Machine.execVectorChunkWrite t s
  | .vectorCommandRetire t => Sys2Proof.Machine.execVectorCommandRetire t s
  | .scratchpadGrant t reqs upset => Sys2Proof.Machine.execScratchpadGrant t reqs upset s
  | .a128TileAdd t => Sys2Proof.Machine.execA128TileAdd t s
  | .a128AddDone t => Sys2Proof.Machine.execA128AddDone t s
  | .dmaChProdWrite path ch v => Sys2Proof.Machine.execDmaChProdWrite path ch v s
  | .dmaChRingBaseWrite path ch v => Sys2Proof.Machine.execDmaChRingBaseWrite path ch v s
  | .dmaChRingCfgWrite path ch v => Sys2Proof.Machine.execDmaChRingCfgWrite path ch v s
  | .dmaRun path ch run => Sys2Proof.Machine.execDmaRun path ch run s
  | .dmaAbort path ch => Sys2Proof.Machine.execDmaAbort path ch s
  | .dmaResume path ch => Sys2Proof.Machine.execDmaResume path ch s
  | .restart path m => Sys2Proof.Machine.execRestart path m s
  | .descriptorFetch ch bus => Sys2Proof.Machine.execDescriptorFetch ch bus s
  | .descriptorCopy ch => Sys2Proof.Machine.execDescriptorCopy ch s
  | .descriptorAdd ch => Sys2Proof.Machine.execDescriptorAdd ch s
  | .descriptorFill ch => Sys2Proof.Machine.execDescriptorFill ch s
  | .dmaBurst ch => Sys2Proof.Machine.execDmaBurst ch s
  | .descriptorComplete ch bus => Sys2Proof.Machine.execDescriptorComplete ch bus s
  | .dmaMemUeResponse ch => Sys2Proof.Machine.execDmaMemUeResponse ch s
  | .dmaBusError ch addr wr => Sys2Proof.Machine.execDmaBusError ch addr wr s
  | .moverBusError m addr wr => Sys2Proof.Machine.execMoverBusError m addr wr s
  | .hbmSectorAccess addr acc ecc => Sys2Proof.Machine.execHbmSectorAccess addr acc ecc s
  | .patrolScrub addr ecc => Sys2Proof.Machine.execPatrolScrub addr ecc s
  | .stackTempSample stack celsius => Sys2Proof.Machine.execStackTempSample stack celsius s
  | .elementAdd stack => Sys2Proof.Machine.execElementAdd stack s
  | .memoryTileAdd stack => Sys2Proof.Machine.execMemoryTileAdd stack s
  | .regulatorTick cd => Sys2Proof.Machine.execRegulatorTick cd s
  | .controllerGrant stack late => Sys2Proof.Machine.execControllerGrant stack late s
  | .memRegCfgWrite path cd part v => Sys2Proof.Machine.execMemRegCfgWrite path cd part v s
  | .memPartMapWrite path j v => Sys2Proof.Machine.execMemPartMapWrite path j v s
  | .cxlRequest port line wr => Sys2Proof.Machine.execCxlRequest port line wr s
  | .cxlCompletion port line poison bytes => Sys2Proof.Machine.execCxlCompletion port line poison bytes s
  | .cxlTimeoutExpiry port line => Sys2Proof.Machine.execCxlTimeoutExpiry port line s
  | .dlDown port => Sys2Proof.Machine.execDlDown port s
  | .cxlLinkRecovery port => Sys2Proof.Machine.execCxlLinkRecovery port s
  | .arbiterGrant die kind unit role late creditErr => Sys2Proof.Machine.execArbiterGrant die kind unit role late creditErr s
  | .creditReturn die link cls n => Sys2Proof.Machine.execCreditReturn die link cls n s
  | .retryResend ch => Sys2Proof.Machine.execRetryResend ch s
  | .fabWaitMaxRead path die => Sys2Proof.Machine.execFabWaitMaxRead path die s
  | .portRetrain port test => Sys2Proof.Machine.execPortRetrain port test s
  | .linkStatusSend port sub => Sys2Proof.Machine.execLinkStatusSend port sub s
  | .nativeFrameReceive port sub bytes => Sys2Proof.Machine.execNativeFrameReceive port sub bytes s
  | .ethernetFrameReceive port sub bytes => Sys2Proof.Machine.execEthernetFrameReceive port sub bytes s
  | .sourceRouteForward nd => Sys2Proof.Machine.execSourceRouteForward nd s
  | .packetSend flow => Sys2Proof.Machine.execPacketSend flow s
  | .write nd => Sys2Proof.Machine.execWrite nd s
  | .read nd => Sys2Proof.Machine.execRead nd s
  | .readRsp nd => Sys2Proof.Machine.execReadRsp nd s
  | .atomic nd => Sys2Proof.Machine.execAtomic nd s
  | .atomicRsp nd => Sys2Proof.Machine.execAtomicRsp nd s
  | .send nd => Sys2Proof.Machine.execSend nd s
  | .ack nd => Sys2Proof.Machine.execAck nd s
  | .nack nd => Sys2Proof.Machine.execNack nd s
  | .ackSend flow => Sys2Proof.Machine.execAckSend flow s
  | .retransmitTimeout flow => Sys2Proof.Machine.execRetransmitTimeout flow s
  | .rnrRetry flow => Sys2Proof.Machine.execRnrRetry flow s
  | .linkLoss port sub cause => Sys2Proof.Machine.execLinkLoss port sub cause s
  | .linkHoldExpiry port sub => Sys2Proof.Machine.execLinkHoldExpiry port sub s
  | .linkReturn port sub => Sys2Proof.Machine.execLinkReturn port sub s
  | .flowOpen path flow v => Sys2Proof.Machine.execFlowOpen path flow v s
  | .flowDrain path flow v => Sys2Proof.Machine.execFlowDrain path flow v s
  | .flowFree path flow v => Sys2Proof.Machine.execFlowFree path flow v s
  | .flowFieldWrite path flow word v => Sys2Proof.Machine.execFlowFieldWrite path flow word v s
  | .flowDrained flow => Sys2Proof.Machine.execFlowDrained flow s
  | .colJob cid => Sys2Proof.Machine.execColJob cid s
  | .rs nd => Sys2Proof.Machine.execRs nd s
  | .repair nd => Sys2Proof.Machine.execRepair nd s
  | .ag nd => Sys2Proof.Machine.execAg nd s
  | .credit nd => Sys2Proof.Machine.execCredit nd s
  | .abort nd => Sys2Proof.Machine.execAbort nd s
  | .chunkInject nd tag step => Sys2Proof.Machine.execChunkInject nd tag step s
  | .creditSend nd tag step => Sys2Proof.Machine.execCreditSend nd tag step s
  | .colJobComplete nd tag step => Sys2Proof.Machine.execColJobComplete nd tag step s
  | .pcieConfigRequest req => Sys2Proof.Machine.execPcieConfigRequest req s
  | .bar2Read port off len => Sys2Proof.Machine.execBar2Read port off len s
  | .bar2Write port off bytes poisoned => Sys2Proof.Machine.execBar2Write port off bytes poisoned s
  | .qcreate path q => Sys2Proof.Machine.execQcreate path q s
  | .qdestroy path q => Sys2Proof.Machine.execQdestroy path q s
  | .qdestroyDone q => Sys2Proof.Machine.execQdestroyDone q s
  | .tqTailWrite path q v => Sys2Proof.Machine.execTqTailWrite path q v s
  | .queueFetch q host => Sys2Proof.Machine.execQueueFetch q host s
  | .nop cid => Sys2Proof.Machine.execNop cid s
  | .waitGeRelease q => Sys2Proof.Machine.execWaitGeRelease q s
  | .waitStall q => Sys2Proof.Machine.execWaitStall q s
  | .commandComplete cid => Sys2Proof.Machine.execCommandComplete cid s
  | .mvPost cid => Sys2Proof.Machine.execMvPost cid s
  | .mvHost cid host => Sys2Proof.Machine.execMvHost cid host s
  | .netAtomic cid => Sys2Proof.Machine.execNetAtomic cid s
  | .netSend cid => Sys2Proof.Machine.execNetSend cid s
  | .graphDefine cid => Sys2Proof.Machine.execGraphDefine cid s
  | .graphPatch cid => Sys2Proof.Machine.execGraphPatch cid s
  | .graphCommit cid => Sys2Proof.Machine.execGraphCommit cid s
  | .graphLaunch cid => Sys2Proof.Machine.execGraphLaunch cid s
  | .graphDelete cid => Sys2Proof.Machine.execGraphDelete cid s
  | .graphNodeComplete cid => Sys2Proof.Machine.execGraphNodeComplete cid s
  | .ctrSet cid => Sys2Proof.Machine.execCtrSet cid s
  | .regWrite cid => Sys2Proof.Machine.execRegWrite cid s
  | .tqCtrAddWrite path k v => Sys2Proof.Machine.execTqCtrAddWrite path k v s
  | .tqCtrValueWrite path k v => Sys2Proof.Machine.execTqCtrValueWrite path k v s
  | .tqBar2BaseWrite path v => Sys2Proof.Machine.execTqBar2BaseWrite path v s
  | .functionLevelReset port fn => Sys2Proof.Machine.execFunctionLevelReset port fn s
  | .registerWrite path off wide v => Sys2Proof.Machine.execRegisterWrite path off wide v s
  | .h2dDataWrite port ch v => Sys2Proof.Machine.execH2dDataWrite port ch v s
  | .h2dAck port ch code => Sys2Proof.Machine.execH2dAck port ch code s
  | .d2hDataWrite port ch v => Sys2Proof.Machine.execD2hDataWrite port ch v s
  | .d2hAck port ch code => Sys2Proof.Machine.execD2hAck port ch code s
  | .fwUpdate flashOk => Sys2Proof.Machine.execFwUpdate flashOk s
  | .attest flashOk => Sys2Proof.Machine.execAttest flashOk s
  | .cert => Sys2Proof.Machine.execCert s
  | .ppStore flashOk => Sys2Proof.Machine.execPpStore flashOk s
  | .ppRun => Sys2Proof.Machine.execPpRun s
  | .ppAbort => Sys2Proof.Machine.execPpAbort s
  | .ppList => Sys2Proof.Machine.execPpList s
  | .ppErase flashOk => Sys2Proof.Machine.execPpErase flashOk s
  | .ppTargetReady t timedOut => Sys2Proof.Machine.execPpTargetReady t timedOut s
  | .ppGroupScan passed repaired millis => Sys2Proof.Machine.execPpGroupScan passed repaired millis s
  | .externalPortOwn => Sys2Proof.Machine.execExternalPortOwn s
  | .rcvLoad cid host flashOk => Sys2Proof.Machine.execRcvLoad cid host flashOk s
  | .rcvCommit cid => Sys2Proof.Machine.execRcvCommit cid s
  | .coldStart inp => Sys2Proof.Machine.execColdStart inp s
  | .portRelease port => Sys2Proof.Machine.execPortRelease port s
  | .full path => Sys2Proof.Machine.execFull path s
  | .dieGo path die => Sys2Proof.Machine.execDieGo path die s
  | .smbusReset => Sys2Proof.Machine.execSmbusReset s
  | .fullReset inp => Sys2Proof.Machine.execFullReset inp s
  | .watchdogUpdate => Sys2Proof.Machine.execWatchdogUpdate s
  | .watchdogExpiry => Sys2Proof.Machine.execWatchdogExpiry s
  | .tripRestart => Sys2Proof.Machine.execTripRestart s
  | .perst port => Sys2Proof.Machine.execPerst port s
  | .hotReset port => Sys2Proof.Machine.execHotReset port s
  | .retire path t => Sys2Proof.Machine.execRetire path t s
  | .retirement t => Sys2Proof.Machine.execRetirement t s
  | .perstDeassertion port => Sys2Proof.Machine.execPerstDeassertion port s
  | .externalPortRelease => Sys2Proof.Machine.execExternalPortRelease s
  | .sketchRegionWrite image => Sys2Proof.Machine.execSketchRegionWrite image s
  | .alwaysOnDomainLoss => Sys2Proof.Machine.execAlwaysOnDomainLoss s

end Sys2Proof.Machine
end

