-- ==== Sys2Proof/Machine/Tick.lean ====
section
/-! DEFINITION. What time does with no command waiting (R42, R43): 4 ns, the shortest time in which every die's clock runs a
whole number of cycles (log 1). -/
namespace Sys2Proof.Machine

/-- The cycle counter of die d, n cycles on: free-running, while the die's clock domain is locked (R43, R47).
[log 127: DEDUCED] -/
def State.cycles (s : State) (d n : Nat) : State :=
  if flag (s.reg 0x20000) d then s.setReg (0x20 + 8 * d) (s.reg (0x20 + 8 * d) + BitVec.ofNat 64 n) else s

/-- The pauses that peers of Ethernet links have asked for run down by 4 ns, 100 units of 0.04 ns (R324).
[log 158: DESIGN CHOICE] -/
def State.pausesRun (s : State) : State :=
  s.links.foldl (fun s e =>
    let l := s.link (e.1 / 4) (e.1 % 4)
    if l.pause = [] then s
    else s.setLink (e.1 / 4) (e.1 % 4) { l with
      pause := (l.pause.map fun p => (p.1, p.2 - 100)).filter fun p => p.2 != 0 }) s

/-- 4 ns: 5 cycles of CCLK on the compute dies, 6 of the fabric clock on the network dies (R42).
[log 1: DESIGN CHOICE] -/
def State.tick (s : State) : State := (((s.pausesRun.cycles 0 5).cycles 1 5).cycles 2 6).cycles 3 6

end Sys2Proof.Machine
end

