-- ==== Sys2Proof/Safety.lean ====
section
/-! DEFINITION. What the claims call a well-kept state, a safe step, and a frame: what a command leaves as it was. -/
namespace Sys2Proof.Machine

/-- The stores keep their canonical form: equal memories, register files and error-correction states are equal data. -/
def State.canonical (s : State) : Bool :=
  Memory.wf s.mem && twf regReset s.regs && twf (fun _ => Ecc.clean) s.ecc

/-- A step is safe when the machine goes on: it answers a next state. -/
def stepsOn (s : State) : Prop := ∃ t, step s = .next t

/-- A command completes from a state in a state: no fault, no refusal. -/
def completes (c : Instr) (s t : State) : Prop := exec c s = .next t

/-- Registers outside a list read as before. -/
def regsBut (L : List Nat) (s t : State) : Prop := ∀ o, o ∉ L → t.reg o = s.reg o

/-- Every byte of memory reads as before. -/
def memSame (s t : State) : Prop := ∀ a, t.byte a = s.byte a

/-- Every byte of memory outside n bytes from an address reads as before. -/
def memBut (a n : Nat) (s t : State) : Prop := ∀ k, (k < a ∨ a + n ≤ k) → t.byte k = s.byte k

/-- Nothing but registers of a list changes. -/
def onlyRegs (L : List Nat) (s t : State) : Prop := t = { s with regs := t.regs } ∧ regsBut L s t

/-- Nothing but one tile changes. -/
def onlyTile (t : Nat) (s v : State) : Prop := v = { s with tiles := v.tiles } ∧ ∀ k, k ≠ t → v.tile k = s.tile k

/-- Nothing but one tile and registers of a list changes. -/
def onlyTileAnd (t : Nat) (L : List Nat) (s v : State) : Prop :=
  v = { s with regs := v.regs, tiles := v.tiles } ∧ regsBut L s v ∧ ∀ k, k ≠ t → v.tile k = s.tile k

/-- Nothing but one matrix unit of a tile changes. -/
def onlyUnit (t : Nat) (u : MUnit) (s v : State) : Prop :=
  onlyTile t s v ∧ v.tile t = (s.tile t).setUnit u ((v.tile t).unit u)

/-- The command a matrix unit of a tile runs. -/
def State.runOf (s : State) (t : Nat) (u : MUnit) : Option MRun := ((s.tile t).unit u).run

/-- A matrix unit of a running tile that works on a product, an ACC.INIT or an ACC.DRAIN with nothing failed so far, in a
scratchpad whose words are all good and none of whose ports waits for a grant. -/
def State.working (s : State) (t : Nat) (u : MUnit) (r : MRun) (op : MOp) (p : MPlate) : Prop :=
  s.tileOn t = true ∧ s.runOf t u = some r ∧ r.cmd.mplate = (op, p) ∧ r.stop = none ∧ r.failAt = none ∧ s.ecc = [] ∧
    (s.tile t).spWait = []

/-- The window column that the next ADD of a unit meets stands in the window: filled, or free for a fresh half (R129). -/
def MRun.upToDate (r : MRun) (p : MPlate) : Prop :=
  ∀ x c, r.adding = some (x, c) →
    (x.fresh = true ∧ colFree p x c 0 r.halves = true) ∨ (x.fresh = false ∧ c < x.filled)

/-- What a link carries where the bytes of a packet leave in a buffer (R321, R324): in native mode a frame whose header
accounts for its own cells; in Ethernet mode a frame with the addresses and the tag of a flow's word 1. -/
def State.onLink (s : State) (port sub buf : Nat) (bs : List Byte) (eth : Word) : Emit :=
  .frame port sub (if s.ethernet port then
      etherFrame (field eth 47 0) (s.portMac port sub) (s.vlanTag eth (buf / 2)) (field (s.reg 0x70000) 15 0) bs
    else packetFrame buf (linkCount (s.link port sub).sent buf + BitVec.ofNat 16 (cellsFor bs.length)).toNat
      ((List.range 6).map (linkCount (s.link port sub).out)) bs)

/-- What a flow's link carries for a packet of it. -/
def State.flowFrame (s : State) (i : Nat) (p : Packet) : Emit :=
  s.onLink (s.flowPort i) (s.flowSub i) (2 * wireNum (ptypeClass p.ptype)) (packetBytes p) (s.reg (flowReg i 1))

/-- No tile add of a memory-side adder holds bytes of a range (R285). -/
def State.unheld (s : State) (a n : Nat) : Prop :=
  ∀ k r, (s.stack k).run = some r → overlap (a, n) (tileRange r.base) = false

/-- A chunk of one of some types stands at its final hop, next to be handled, for a flow that takes it at a place of its
receive window, and for a job that can read it; every word of memory is good, the module is not split. -/
def State.chunkHere (s : State) (nd : Nat) (types : List Nat) (x : Nat × Arrival) (i off : Nat) (j : Job) (c : Chunk) :
    Prop :=
  s.nextArrival nd (chunkOf types) = some x ∧ s.flowFor nd x.2.pkt = some i ∧ s.flowState i ≠ 3 ∧
    s.psnPlace i x.2.pkt.psn = .inside off ∧ s.flowPerm i 4 = true ∧
    s.job? nd (chunkKey x.2.pkt.payload).1 (chunkKey x.2.pkt.payload).2 = some j ∧
    Chunk.decode x.2.pkt.payload j.jrec.pfmt = some c ∧ s.ecc = [] ∧ s.split = false

/-- The block of a job's local gradient that a record asks for, as exact values; it lies in near memory that the job's
die reaches. -/
def State.gradient (s : State) (j : Job) (b : Nat) (xs : List XReal) : Prop :=
  let k := j.jrec.gSize
  let a := j.jrec.gBase + 32 * k * b
  0 < k ∧ a + 32 * k ≤ 0x8000000000 ∧ (∀ i, i < 32 * k → s.reach (2 + j.nd) (a + i) = .ok) ∧
    xs = (List.range 32).map fun i => decodeElem j.jrec.gfmt (s.num (a + k * i) k)

/-- The CREDIT a job sends to its predecessor over a flow (R345): the slots freed plus the pool. -/
def State.creditPacket (s : State) (i : Nat) (j : Job) : Packet :=
  { s.packet i 6 (bareChunk j.jrec.tag j.jrec.step 0 .credit).encode with
    ref := (j.freed + BitVec.ofNat 16 j.jrec.pool).setWidth 32 }

/-- A management command that its graph engine runs on a graph (R399): passed, the engine in service, the graph of that
engine, and no other function's. -/
def State.managed (s : State) (cid opc : Nat) (c : Cmd) (g : Nat) : Prop :=
  s.passed cid opc = some c ∧ s.dieLost (engineDie c.engine) = false ∧
    s.physGraph c.engine c.part (graphArg c.bytes) = some g ∧
    (c.kernel = true ∨ s.graphOwned g = false ∨ s.graphFunc g = s.cmdFunc c)

/-- The records of a definition's or a patch's table, in near memory that the engine's die reaches. -/
def State.recordsAt (s : State) (c : Cmd) (recs : List (List Byte)) : Prop :=
  let n := countArg c.bytes
  ∃ a, s.memAt c.part (addrAt c.bytes 32) (128 * n) = some a ∧ a + 128 * n ≤ 0x8000000000 ∧ s.ecc = [] ∧
    (∀ k, k < 128 * n → s.reach (engineSrc c.engine).die (a + k) = .ok) ∧
    recs = (List.range n).map fun i => s.bytes (a + 128 * i) 128

/-- What a node is, its slot left out. -/
def Node.shape (n : Node) : List Byte × Nat × Nat × List Nat := (n.bytes, n.target, n.npred, n.succ)

/-! ### The secure monitor (R418 to R420) -/

/-- The oldest message of those whose port Flint reaches is a command with its ARG, from a port whose partition's memory it
may use; every word of memory is good. -/
def State.secureFront (s : State) (p : Fin 2) (ch : Fin 16) (cmd arg : Nat) : Prop :=
  (s.secure.find? fun x => s.flintReaches x.1) = some (p, ch) ∧ (s.mode = .running ∨ s.mode = .halted) ∧
    (s.mail 0 p ch).data.toNat = cmd * 2 ^ 24 + arg ∧ arg < 2 ^ 24 ∧ (s.mail 0 p ch).isFull = true ∧
    s.ownsParts p = true ∧ s.ecc = []

/-- The monitor has answered a channel's message with a status and a DETAIL, and the message has left its queue. -/
def State.answered (s t : State) (p : Fin 2) (ch : Fin 16) (st : Status) (detail : Nat) : Prop :=
  t.secure = s.secure.erase (p, ch) ∧ (t.mail 0 p ch).isFull = false ∧ (t.mail 0 p ch).acked = true ∧
    (t.mail 0 p ch).code = secCode st detail

/-- n bytes at an offset of a buffer lie at an address of near memory that Flint reaches. -/
def State.bufferAt (s : State) (p : Fin 2) (arg off n a : Nat) : Prop :=
  s.memAt (s.portPart p) (4096 * arg + off) n = some a ∧ a + n ≤ 0x8000000000 ∧
    ∀ k, k < n → s.reach 2 (a + k) = .ok

/-- A start in which nothing fails: every clock locks, every seam, stack and fuse word is good, no trip, no lost clock. -/
def cleanStart (i : StartInputs) : Prop :=
  i.wf = true ∧ i.fuseFail = none ∧ i.pllFail = none ∧ i.laneFails = [] ∧ i.hbmLanes = [] ∧ i.clockLost = none ∧
    i.trip = none

/-- GLB_TRIP of a cause (R45): UV in bit 0, OV in bit 1, THERM in bit 2 with the die in bits 5:4. -/
def tripCode : TripCause → Word
  | .uv => 1
  | .ov => 2
  | .therm .cd0 => 4
  | .therm .cd1 => 20
  | .therm .nd0 => 36
  | .therm .nd1 => 52

/-! ### Bundles (R164, R168) -/

/-- An open issue of a tile whose one remaining slot is `slot`, with no repeat left: the last act of its bundle. -/
def lastSlot (s : State) (t slot : Nat) (i : Issue) : Prop :=
  (s.tile t).issue = some i ∧ i.todo = [slot] ∧ i.left = 0 ∧ i.marks = [] ∧ i.ending = false

/-- A tile whose bundle has closed: its active bank, the PC of the next bundle, no issue open, nothing repeated. -/
def closedTile (x : Tile) (b : Bank) (pc : BitVec 10) : Tile :=
  { x.setBank x.active { b with pc := pc } with issue := none, rep := none }

/-- The state whose tile t has closed its bundle with bank b, at the PC the issue left; nothing else differs. -/
def closedWith (s : State) (t : Nat) (b : Bank) (pc : BitVec 10) : State := s.setTile t (closedTile (s.tile t) b pc)

end Sys2Proof.Machine
end

