-- ==== Sys2Proof/Certificates/Slice0/Obligations.lean ====
section
/-! DEFINITION. The statements about the model, for the provers. -/

open Sys2Proof Sys2Proof.Machine

/-! ### The queue and reset -/

/-- A step with a command at the front of the queue is that command's effect on the state with the queue's rest. -/
def Obligations.StepRunsTheFrontCommand : Prop :=
  ∀ (s : State) (c : Instr) (rest : List Instr), s.pending = c :: rest → step s = exec c { s with pending := rest }

/-- No command's meaning touches the queue of waiting commands: what a step leaves of it is the queue without its
front. -/
def Obligations.NoCommandTouchesTheQueue : Prop :=
  ∀ (s t : State) (c : Instr), exec c s = .next t → t.pending = s.pending

/-- After reset every store is in its canonical form. -/
def Obligations.ResetIsCanonical : Prop := State.reset.canonical = true

/-- Every step keeps the canonical form of memory, of the register file and of the error-correction state: from every
state that has it, not only from states that a run reaches. -/
def Obligations.EveryStepKeepsTheCanonicalForm : Prop :=
  ∀ s t : State, s.canonical = true → step s = .next t → t.canonical = true

/-- The state right after reset (R32, R46, R245, R437): no power on the load rails, no command waiting, every register
at the value of its Reset column, every scratchpad byte 0, no die lost, Whole mode, cap 1,000 W. That the bytes of the
other memories read 0 is the model's choice (log 2). -/
def Obligations.ResetLeavesEveryRegisterAtItsResetValue : Prop :=
  State.reset.mode = .off ∧ State.reset.pending = [] ∧ (∀ o, State.reset.reg o = regReset o) ∧
    (∀ a, State.reset.byte a = 0) ∧ (∀ d, State.reset.dieLost d = false) ∧ State.reset.split = false ∧
    field (State.reset.reg 0x10004) 10 0 = 1000 ∧ (∀ c i, c < 3 → i < 2 → State.reset.level c i = 0)

/-- On an empty queue 4 ns pass (log 1): the cycle counter of each die whose clock runs counts on, modulo 2^64 (R43),
5 cycles of CCLK or 6 of the fabric clock (R42); the pauses that peers of Ethernet links have asked for run down by 100
units of 0.04 ns (R324), and with none asked for nothing but the counters changes. -/
def Obligations.AnEmptyQueueLetsTheCountersRun : Prop :=
  ∀ s : State, s.pending = [] → ∃ t, step s = .next t ∧ t = { s with regs := t.regs, links := t.links } ∧
    regsBut [0x20, 0x28, 0x30, 0x38] s t ∧
    (∀ d, d < 4 → t.reg (0x20 + 8 * d) =
      if flag (s.reg 0x20000) d then s.reg (0x20 + 8 * d) + (if d < 2 then 5 else 6) else s.reg (0x20 + 8 * d)) ∧
    ((∀ p j, (s.link p j).pause = []) → t.links = s.links) ∧
    (∀ p j l, j < 4 → s.links = [(4 * p + j, l)] →
      (t.link p j).pause = (l.pause.map fun x => (x.1, x.2 - 100)).filter fun x => x.2 != 0)

/-- A command whose operands no link, controller, host or training can carry stops with the fault of its own and
changes nothing (the model's choice, log 3): a write past its line, a completion that is not a line, an
arbiter or a link that its die has not, a frame or a request of an impossible size, start-up inputs that leave a unit
out. -/
def Obligations.IllFormedCommandsStop : Prop :=
  ∀ (s : State) (c : Instr), c.wf = false → exec c s = .fault .illFormed

/-- Every well-formed command completes in every state: no state stops it (R12: errors of a command are reported by
status, not by a stop). -/
def Obligations.WellFormedCommandsComplete : Prop :=
  ∀ (s : State) (c : Instr), c.wf = true → ∃ t, completes c s t

/-! ### Power, clocks and seams (01_module.md) -/

/-- POWER_TRIP (R33, R34): once the load rails are on, a trip takes every domain but the always-on one down: GLB_TRIP
tells the cause, the mode is tripped, near memory and scratchpads lose their bytes, far memory keeps them (log 20),
the units are empty and every register but those that the always-on domain keeps reads its reset value; flash is kept.
-/
def Obligations.PowerTripTakesTheLoadDown : Prop :=
  ∀ (s : State) (c : TripCause), s.powered = true → ∃ t, completes (.powerTrip c) s t ∧ t.mode = .tripped ∧
    t.reg 0x10 = tripCode c ∧
    (∀ a, t.byte a = if 0x100000000000 ≤ a ∧ a < 0x200000000000 then s.byte a else 0) ∧
    t.tiles = [] ∧ t.chans = [] ∧ t.cmds = [] ∧ t.flows = [] ∧ t.jobs = [] ∧ t.queues = [] ∧ t.flash = s.flash ∧
    t.pending = s.pending ∧ regsBut [0x10, 0x40, 0x44, 0x4C, 0x50, 0xA0010] State.reset t ∧
    (∀ o, o ∈ [0x40, 0x44, 0x4C, 0x50] → t.reg o = s.reg o)

/-- GOVERNOR_SAMPLE (R36, R38, R39, R46): while the load rails are on, every sample is noted among the step's last ten,
voltage and hottest junctions are shown, and each die is held hot from 95 °C on until it reads below 93 °C; THERMAL is set
by a die at 95 °C. A single sample above PWR_CAP + 100 W raises both compute levels to at least 8 and sets FAST_CLAMP and
THROTTLED; a sample up to there leaves every level; memory and network levels stay either way. Without the load rails
nothing is sampled. -/
def Obligations.GovernorSamplesAreTaken : Prop :=
  ∀ (s : State) (w v : Nat) (x : Temps),
    (s.powered = true → ∃ t, completes (.governorSample w v x) s t ∧
      t.power.samples = s.power.samples.drop (s.power.samples.length - 9) ++ [w] ∧
      (s.power.hot.length = 4 → ∀ e ∈ [(0, x.cd0), (1, x.cd1), (2, x.nd0), (3, x.nd1)],
        t.hotDie e.1 = (decide (95 ≤ e.2) || (s.hotDie e.1 && decide (93 ≤ e.2)))) ∧
      (t.reg 0x10014).toNat = min x.cd0 255 + 256 * min x.cd1 255 + 65536 * min x.nd0 255 + 16777216 * min x.nd1 255 ∧
      field (t.reg 0x10008) 25 16 = min v 1023 ∧
      flag (t.reg 0x10010) 2 = (flag (s.reg 0x10010) 2 || [x.cd0, x.cd1, x.nd0, x.nd1].any fun y => decide (95 ≤ y)) ∧
      (s.power.cap + 100 < w → t.level 0 0 = max 8 (s.level 0 0) ∧ t.level 0 1 = max 8 (s.level 0 1) ∧
        flag (t.reg 0x10010) 1 = true ∧ flag (t.reg 0x10010) 0 = true) ∧
      (w ≤ s.power.cap + 100 → ∀ i, i < 2 → t.level 0 i = s.level 0 i) ∧
      (∀ c i, (c = 1 ∨ c = 2) → i < 2 → t.level c i = s.level c i) ∧ memSame s t ∧
      regsBut [0x10008, 0x1000C, 0x10010, 0x10014] s t) ∧
    (s.powered = false → completes (.governorSample w v x) s s)

/-- GOVERNOR_STEP (R36, R37, R39, R41, R46): after ten samples a step takes the cap and profile in effect, raises every
class of a hot die by one level, counts a step whose mean is above the cap less 25 W, and counts low steps towards a
restore. A step that does not cut leaves the levels as the hot dies left them; one that cuts by one level raises the first
class of the profile's order that stands below its limit, and no other class; no cut raises a level by more than 2.
RESTORE (R36, R39): a restore that is due lowers, by one level, the last class of the order with an instance above 0 on a
die that is not hot, at each such instance. PWR_PROFILE_WRITE and PWR_CAP_WRITE (R41, R46): a write through the kernel
path stores the profile, or the cap held between 400 and 1,000 W; levels and the cap in effect stay until the next step.
Outside the kernel path nothing changes. What counts as a step that cuts, and that hot dies come first, is the model's
choice (logs 154, 156). -/
def Obligations.PowerFollowsItsSettings : Prop :=
  (∀ s : State, s.powered = true → s.power.samples.length = 10 →
    let sum := s.power.samples.sum
    let cap := field (s.reg 0x10004) 10 0
    let profile := field (s.reg 0x10000) 1 0
    let order := if profile = s.power.profile then s.power.order else profileOrder profile
    let cuts := decide (10 * (cap - 25) < sum)
    let by_ := if 10 * cap < sum then 2 else if cuts then 1 else 0
    let up := fun (c i : Nat) => if s.hotDie (classDie c i) then min 15 (s.level c i + 1) else s.level c i
    ∃ t, completes .governorStep s t ∧ t.power.samples = [] ∧ t.power.cap = cap ∧ t.power.profile = profile ∧
      t.reg 0x10018 = (if cuts then BitVec.ofNat 64 (min ((s.reg 0x10018).toNat + 1) 0xFFFFFFFF) else s.reg 0x10018) ∧
      t.power.restoreDue = (s.power.restoreDue || (!cuts && decide (10 ≤ s.power.lowSteps))) ∧
      t.power.lowSteps = (if sum < 10 * (cap - 60) then
        (if !cuts && decide (10 ≤ s.power.lowSteps) then 1 else s.power.lowSteps + 1) else 0) ∧
      (∀ c i, c < 3 → i < 2 → up c i ≤ t.level c i ∧ t.level c i ≤ min 15 (up c i + by_)) ∧
      (by_ = 1 → ∀ c, c < 3 →
        (order.find? fun c => decide (up c 0 < profileLimit profile c) || decide (up c 1 < profileLimit profile c)) = some c →
        ∀ k i, k < 3 → i < 2 → t.level k i = if k = c ∧ up c i < profileLimit profile c then up c i + 1 else up k i) ∧
      memSame s t) ∧
  (∀ s : State, s.power.restoreDue = true →
    let able := fun (c i : Nat) => decide (0 < s.level c i) && !s.hotDie (classDie c i)
    ∃ t, completes .restore s t ∧ t.power = { s.power with restoreDue := false } ∧ memSame s t ∧
      flag (t.reg 0x10010) 0 = decide ((t.reg 0x1000C).toNat ≠ 0) ∧ regsBut [0x1000C, 0x10010] s t ∧
      (∀ c, c < 3 → (s.power.order.reverse.find? fun c => able c 0 || able c 1) = some c →
        ∀ k i, k < 3 → i < 2 → t.level k i = if k = c ∧ able c i = true then s.level c i - 1 else s.level k i) ∧
      ((s.power.order.reverse.find? fun c => able c 0 || able c 1) = none → t.reg 0x1000C = s.reg 0x1000C)) ∧
  (∀ s : State, (s.powered = false ∨ s.power.samples.length ≠ 10 → completes .governorStep s s) ∧
    (s.power.restoreDue = false → completes .restore s s)) ∧
  (∀ (s : State) (p : Path) (v : BitVec 32),
    ((s.kernelPath p).isSome = true →
      (∃ t, completes (.pwrProfileWrite p v) s t ∧ (t.reg 0x10000).toNat = v.toNat % 4 ∧ onlyRegs [0x10000] s t) ∧
      ∃ t, completes (.pwrCapWrite p v) s t ∧ (t.reg 0x10004).toNat = max 400 (min 1000 (v.toNat % 2048)) ∧
        onlyRegs [0x10004] s t) ∧
    (s.kernelPath p = none → completes (.pwrProfileWrite p v) s s ∧ completes (.pwrCapWrite p v) s s))

/-- CLOCK_LOSS (R44, R47): a running domain stops being locked and is reported lost; a domain that does not run reports
nothing. The loss of a die's clock loses the die; that of a memory stack's, a seam's or a host port's takes the stack, the
seam or the port out of service. SEAM_REPLAY (R22, R48): a replay on a seam that is up counts, saturating; a lane that
keeps failing is noted for the retrain that a full reset makes. -/
def Obligations.ClocksAndSeamsReport : Prop :=
  (∀ (s : State) (n : Fin 25),
    (flag (s.reg 0x20000) n = true → ∃ t, completes (.clockLoss n) s t ∧ flag (t.reg 0x20000) n = false ∧
      flag (t.reg 0x20004) n = true ∧ (n.val < 4 → t.dieLost n = true) ∧ (4 ≤ n.val → n.val ∈ t.domainLost) ∧
      (4 ≤ n.val → n.val < 12 → flag (t.reg (0x50000 + (n.val - 4) * 0x400)) 0 = false ∧
        t = { s with regs := t.regs, domainLost := t.domainLost } ∧
        regsBut [0x20000, 0x20004, 0x50000 + (n.val - 4) * 0x400] s t) ∧
      (12 ≤ n.val → n.val < 16 → flag (t.reg (0x30000 + (n.val - 12) * 0x10)) 0 = false ∧
        t = { s with regs := t.regs, domainLost := t.domainLost } ∧
        regsBut [0x20000, 0x20004, 0x30000 + (n.val - 12) * 0x10] s t) ∧
      (18 ≤ n.val → n.val < 20 → (t.port (n.val - 18)).linkUp = false ∧ (t.port (n.val - 18)).released = false ∧
        t = { s with regs := t.regs, domainLost := t.domainLost, ports := t.ports } ∧ regsBut [0x20000, 0x20004] s t)) ∧
    (flag (s.reg 0x20000) n = false → completes (.clockLoss n) s s)) ∧
  (∀ (s : State) (i : Fin 4) (k : Bool), flag (s.reg (0x30000 + i.val * 0x10)) 0 = true →
    ∃ t, completes (.seamReplay i k) s t ∧
      (t.reg (0x30000 + i.val * 0x10 + 8)).toNat = min ((s.reg (0x30000 + i.val * 0x10 + 8)).toNat + 1) 0xFFFFFFFF ∧
      t = { s with regs := t.regs, seamRetrain := t.seamRetrain } ∧ regsBut [0x30000 + i.val * 0x10 + 8] s t ∧
      (∀ j, j ∈ t.seamRetrain ↔ j ∈ s.seamRetrain ∨ (k = true ∧ j = i.val)))

/-! ### The tile processor (06_tile_processor.md, 07_bundle_reference.md) -/

/-- BUNDLE_NOP (R167, R183, R193): the running task's bundle at PC, fetched clean inside its pin range and holding
eight empty slots, issues: the PC goes to the next bundle, TILE_PROC_BUNDLES counts one, and nothing else changes. The
control operations of S0 (R168, R169, R172, R200, R201). -/
def Obligations.BundlesIssueAndControl : Prop :=
  (∀ (s : State) (t : TileId), s.tileOn t = true → (s.tile t).issue = none → (s.tile t).rep = none →
     (s.tile t).scalar = none → (s.tile t).cur.phase = .issuing → (s.tile t).cur.pins (s.tile t).cur.pc.toNat = true →
     s.eccAt (0xF80002000000 + t.val * 0x10000 + 64 * (s.tile t).cur.pc.toNat) = .clean →
     s.bytes (0xF80002000000 + t.val * 0x10000 + 64 * (s.tile t).cur.pc.toNat) 64 = List.replicate 64 0 →
     ∃ u, completes (.bundleNop t false) s u ∧
       u.tile t = closedTile (s.tile t) (s.tile t).cur ((s.tile t).cur.pc + 1) ∧
       (u.reg (0x1000000 + t.val * 0x10000 + 0x40)).toNat =
         min ((s.reg (0x1000000 + t.val * 0x10000 + 0x40)).toNat + 1) 0xFFFFFFFFFFFFFFFF ∧
       regsBut [0x1000000 + t.val * 0x10000 + 0x40] s u ∧ memSame s u ∧
       ∀ k, k ≠ t.val → u.tile k = s.tile k) ∧
  (∀ (s : State) (t : TileId) (p : Bool) (i : Issue), lastSlot s t 0 i → (s.tile t).cur.phase = .issuing →
     let w := slotOf i.words 0
     let b := (s.tile t).cur
     let target := BitVec.ofNat 10 (field w 48 39)
     let count := if flag w 38 then (i.view.sreg (field w 37 33)).toNat % 2 ^ 32 else field w 31 0
     let cn := field w 51 49
     (slotOpc w = 0x01 → completes (.endTask t p) s (closedWith s t { b with phase := BankPhase.ended } i.nextPc)) ∧
     (slotOpc w = 0x02 → completes (.br t p) s (closedWith s t b target)) ∧
     (slotOpc w = 0x03 → count = 0 → completes (.loopSet t p) s (closedWith s t b (target + 1))) ∧
     (slotOpc w = 0x03 → count ≠ 0 → completes (.loopSet t p) s
       (closedWith s t (b.setC cn (BitVec.ofNat 32 count)) i.nextPc)) ∧
     (slotOpc w = 0x04 → 1 < (i.view.creg cn).toNat → completes (.loopEnd t p) s
       (closedWith s t (b.setC cn (i.view.creg cn - 1)) target)) ∧
     (slotOpc w = 0x04 → (i.view.creg cn).toNat ≤ 1 → completes (.loopEnd t p) s
       (closedWith s t (b.setC cn 0) i.nextPc)) ∧
     (slotOpc w = 0x05 → 2 ≤ count → ∃ u, completes (.rep t p) s u ∧ (u.tile t).issue = none ∧ (u.tile t).cur = b ∧
       (u.tile t).rep = some ⟨count - 1, i.words, i.plates⟩ ∧ u = { s with tiles := u.tiles }) ∧
     (slotOpc w = 0x05 → count = 1 → completes (.rep t p) s (closedWith s t b i.nextPc)) ∧
     (slotOpc w = 0x06 → completes (.cmpSet t p) s (closedWith s t (b.setCmp (field w 51 50)
       ⟨condOf (field w 49 47), flag w 46, field w 45 41, flag w 40, field w 39 35,
         (w.setWidth 16).signExtend 64⟩) i.nextPc)) ∧
     (slotOpc w = 0x07 → completes (.cntSet t p) s (closedWith s t (b.setC cn (BitVec.ofNat 32 count)) i.nextPc)))

/-- The scalar operations of S1 (R164, R202): the result, of registers as the bundle read them, goes to s[RD]; every
other register of the bank and everything else stays. The address operations of S2 and S3 (R203, R204): one address or
stride register takes its value, modulo 2^52; AG.INC adds dN, as the bundle read it, to each marked aN when the issue
ends. -/
def Obligations.ScalarAndAddressOperations : Prop :=
  (∀ (s : State) (t : TileId) (p : Bool) (i : Issue), lastSlot s t 1 i →
     let w := slotOf i.words 1
     let a := i.view.sreg (field w 46 42)
     let b := if flag w 41 then i.view.sreg (field w 40 36) else (w.setWidth 32).signExtend 64
     let sh := b.toNat % 64
     let wrote := fun (v : Word) => closedWith s t ((s.tile t).cur.setS (field w 51 47) v) i.nextPc
     (slotOpc w = 0x10 → completes (.scAdd t p) s (wrote (a + b))) ∧
     (slotOpc w = 0x11 → completes (.scSub t p) s (wrote (a - b))) ∧
     (slotOpc w = 0x12 → completes (.scMul t p) s (wrote (a * b))) ∧
     (slotOpc w = 0x13 → completes (.scAnd t p) s (wrote (a &&& b))) ∧
     (slotOpc w = 0x14 → completes (.scOr t p) s (wrote (a ||| b))) ∧
     (slotOpc w = 0x15 → completes (.scXor t p) s (wrote (a ^^^ b))) ∧
     (slotOpc w = 0x16 → completes (.scShl t p) s (wrote (a <<< sh))) ∧
     (slotOpc w = 0x17 → completes (.scShr t p) s (wrote (a >>> sh))) ∧
     (slotOpc w = 0x18 → completes (.scSra t p) s (wrote (a.sshiftRight sh))) ∧
     (slotOpc w = 0x19 → completes (.scMin t p) s (wrote (if a.toInt ≤ b.toInt then a else b))) ∧
     (slotOpc w = 0x1A → completes (.scMax t p) s (wrote (if a.toInt ≤ b.toInt then b else a))) ∧
     (slotOpc w = 0x1B → completes (.scMinu t p) s (wrote (if a.toNat ≤ b.toNat then a else b))) ∧
     (slotOpc w = 0x1C → completes (.scMaxu t p) s (wrote (if a.toNat ≤ b.toNat then b else a))) ∧
     (slotOpc w = 0x1D → completes (.scSlt t p) s (wrote (if a.toInt < b.toInt then 1 else 0))) ∧
     (slotOpc w = 0x1E → completes (.scSltu t p) s (wrote (if a.toNat < b.toNat then 1 else 0))) ∧
     (slotOpc w = 0x20 → completes (.scMovi t p) s (wrote ((w.setWidth 32).signExtend 64))) ∧
     (slotOpc w = 0x21 → completes (.scMovhi t p) s
       (wrote ((w <<< 32) ||| (i.view.sreg (field w 51 47) &&& 0xFFFFFFFF)))) ∧
     (slotOpc w = 0x22 → completes (.scMova t p) s (wrote ((i.view.areg (field w 46 42)).setWidth 64))) ∧
     (slotOpc w = 0x23 → completes (.scMovc t p) s (wrote ((i.view.creg (field w 46 42)).setWidth 64)))) ∧
  (∀ (s : State) (t : TileId) (hi p : Bool) (i : Issue), lastSlot s t (if hi then 3 else 2) i →
     let w := slotOf i.words (if hi then 3 else 2)
     let b := (s.tile t).cur
     let n := field w 51 47
     let closed := fun (b : Bank) => closedWith s t b i.nextPc
     (slotOpc w = 0x20 → completes (.agAdd t hi p) s (closed (b.setA n (i.view.areg (field w 46 42) +
       (if flag w 41 then (i.view.sreg (field w 40 36)).setWidth 52 else (w.setWidth 32).signExtend 52))))) ∧
     (slotOpc w = 0x21 → completes (.agSet t hi p) s (closed (b.setA n ((w.setWidth 47).signExtend 52)))) ∧
     (slotOpc w = 0x22 → completes (.agDset t hi p) s (closed (b.setD n ((w.setWidth 47).signExtend 52)))) ∧
     (slotOpc w = 0x23 → completes (.agMov t hi p) s (closed (b.setA n ((i.view.sreg (field w 46 42)).setWidth 52)))) ∧
     (slotOpc w = 0x24 → completes (.agDmov t hi p) s (closed (b.setD n ((i.view.sreg (field w 46 42)).setWidth 52)))) ∧
     (slotOpc w = 0x25 → ∃ u, completes (.agInc t hi p) s u ∧ (u.tile t).cur.pc = i.nextPc ∧
       (∀ k, k < 32 → tget (fun _ => 0) (u.tile t).cur.a k =
         if flag w k then i.view.areg k + i.view.dreg k else tget (fun _ => 0) b.a k) ∧
       u = closedWith s t { b with a := (u.tile t).cur.a } i.nextPc))

/-- The queued operations of S4 to S7 (R165, R174, R197, R205, R211, R213): the command, with its sequence number and
the operands as the bundle read them, goes to the end of the queue its slot feeds; everything else stays. -/
def Obligations.QueuedOperationsEnterTheirQueue : Prop :=
  ∀ (s : State) (t : TileId) (hi p : Bool) (i : Issue) (slot : Nat), lastSlot s t slot i →
    (s.tile t).cur.faulted = false → (s.tile t).cur.aborted = false →
    let w := slotOf i.words slot
    let x := s.tile t
    let hdr : SlotHdr := ⟨flag w 51, field w 50 47, flag w 46, field w 45 42,
      if flag w 41 then (i.view.sreg (field w 40 36)).setWidth 32 else BitVec.ofNat 32 (field w 40 36)⟩
    let c : QCmd := ⟨i.seqBase + i.queued.idxOf slot, x.cur.cid, x.cur.pc.toNat, hdr,
      workOf i.view slot w (plateAt i.plates slot)⟩
    let queued := fun (y : Tile) => s.setTile t (closedTile y y.cur i.nextPc)
    let mm := if slot = 4 then { x with f := { x.f with queue := x.f.queue ++ [c] } }
      else if flag w 1 then { x with b1 := { x.b1 with queue := x.b1.queue ++ [c] } }
      else { x with b0 := { x.b0 with queue := x.b0.queue ++ [c] } }
    let v := queued { x with vq := x.vq ++ [c] }
    let dm := queued { x with dm := x.dm ++ [c] }
    (slot = (if hi then 5 else 4) →
      (slotOpc w = 0x80 → completes (.mmF t hi p) s (queued mm)) ∧
      (slotOpc w = 0x88 → completes (.accInit t hi p) s (queued mm)) ∧
      (slotOpc w = 0x89 → completes (.accDrain t hi p) s (queued mm))) ∧
    (slot = 5 → (slotOpc w = 0x81 → completes (.mmDx t p) s (queued mm)) ∧
      (slotOpc w = 0x82 → completes (.mmDw t p) s (queued mm))) ∧
    (slot = 6 →
      (slotOpc w = 0x40 → completes (.vopCvt t p) s v) ∧ (slotOpc w = 0x41 → completes (.vopAdd t p) s v) ∧
      (slotOpc w = 0x42 → completes (.vopMul t p) s v) ∧ (slotOpc w = 0x43 → completes (.vopFma t p) s v) ∧
      (slotOpc w = 0x44 → completes (.vopAxpy t p) s v) ∧ (slotOpc w = 0x45 → completes (.vopMax t p) s v) ∧
      (slotOpc w = 0x46 → completes (.vopMin t p) s v) ∧ (slotOpc w = 0x47 → completes (.vopSten t p) s v) ∧
      (slotOpc w = 0x48 → completes (.vopDsten t p) s v) ∧ (slotOpc w = 0x50 → completes (.vopRsum t p) s v) ∧
      (slotOpc w = 0x51 → completes (.vopRmax t p) s v) ∧ (slotOpc w = 0x52 → completes (.vopSent t p) s v) ∧
      (slotOpc w = 0x58 → completes (.vopTload t p) s v)) ∧
    (slot = 7 →
      (slotOpc w = 0x30 → completes (.dmaXfer t p) s dm) ∧ (slotOpc w = 0x68 → completes (.synSignal t p) s dm) ∧
      (slotOpc w = 0x69 → completes (.synWaitge t p) s dm) ∧ (slotOpc w = 0xC0 → completes (.synCset t p) s dm))

/-- The direct operations of S7 and the scalar port (R178, R179, R182, R214). SYN.EVSET sets its event counter;
SYN.WAITL has no further effect once its bundle has issued; DMA.LDS and DMA.STS inside the scratchpad and aligned are
presented on the scalar port, and outside it or misaligned they are a task fault with BOUNDS; the grant of a load
writes its register zero-extended, the grant of a store its bytes and no other. Queue DM (R179, R181, R216): a head
whose event wait is met and that nothing holds acts: SYN.SIGNAL adds to its counter modulo 2^64, SYN.CSET sets it; a
SYN.WAITGE is released once the counter is at least its value, compared unsigned; a head that waits on its event
counts the cycle; a DMA.XFER that its channel has room for hands over the descriptor that it names (R177, R215, R267). A command without a signal that retires with OK leaves its task's status and the rest of the tile as
they are. -/
def Obligations.DirectOperationsAndDmHeads : Prop :=
  ((∀ (s : State) (t : TileId) (p : Bool) (i : Issue), lastSlot s t 7 i →
     let w := slotOf i.words 7
     let x := s.tile t
     let off := ((i.view.areg (field w 44 40)).toNat + field w 23 0) % 2 ^ 24
     let size := 2 ^ field w 51 50
     let acc := fun (load : Bool) => s.setTile t { closedTile x x.cur i.nextPc with
       scalar := some ⟨x.active, load, off, size, field w 49 45, i.view.sreg (field w 49 45), x.cur.pc.toNat⟩ }
     (slotOpc w = 0x60 → ∃ u, completes (.synEvset t p) s u ∧
       u.ev t (field w 50 47) = (if flag w 46 then (i.view.sreg (field w 45 41)).setWidth 32 else w.setWidth 32) ∧
       regsBut [0x1000000 + t.val * 0x10000 + 0x100 + 4 * field w 50 47] s u ∧ memSame s u ∧
       u.tile t = closedTile x x.cur i.nextPc) ∧
     (slotOpc w = 0x61 → completes (.synWaitl t p) s (closedWith s t x.cur i.nextPc)) ∧
     (slotOpc w = 0x20 → off + size ≤ 0x600000 → off % size = 0 → completes (.dmaLds t p) s (acc true)) ∧
     (slotOpc w = 0x21 → off + size ≤ 0x600000 → off % size = 0 → completes (.dmaSts t p) s (acc false)) ∧
     (slotOpc w = 0x20 ∨ slotOpc w = 0x21 → (0x600000 < off + size ∨ off % size ≠ 0) → x.cur.phase = .issuing →
       x.cur.faulted = false → ∃ u, completes (if slotOpc w = 0x20 then .dmaLds t p else .dmaSts t p) s u ∧
         (u.tile t).cur.phase = .ended ∧ (u.tile t).cur.faulted = true ∧ memSame s u ∧
         field (u.reg (0x1000000 + t.val * 0x10000 + 8)) 10 0 = 1 + 256 * 6)) ∧
   (∀ (s : State) (t : TileId) (a : ScalarAcc), (s.tile t).scalar = some a → s.ecc = [] →
     (∀ w ∈ (s.tile t).spWait, w.port ≠ 35) →
     (a.load = true → ∃ u, completes (.scalarGrant t) s u ∧ (u.tile t).scalar = none ∧
       tget (fun _ => 0) ((u.tile t).bank a.bank).s a.sreg =
         BitVec.ofNat 64 (s.num (0xF00000000000 + t.val * 0x1000000 + a.off) a.size) ∧
       u = { s with tiles := u.tiles }) ∧
     (a.load = false → ∃ u, completes (.scalarGrant t) s u ∧ (u.tile t).scalar = none ∧
       u.bytes (0xF00000000000 + t.val * 0x1000000 + a.off) a.size = natLe a.size a.data.toNat ∧
       memBut (0xF00000000000 + t.val * 0x1000000 + a.off) a.size s u ∧ regsBut [] s u))) ∧
  (∀ (s : State) (t : TileId) (c : QCmd) (rest : List QCmd) (n : Nat) (v : Word),
     (s.tile t).dm = c :: rest → s.tileOn t = true → s.split = false → n < 65536 → c.hdr.sigEn = false →
     (s.tile t).bankOf c.cid = none → (∀ d, s.dieLost d = false) →
     (∀ i, i < 4 → flag (s.reg (0x30000 + 0x10 * i)) 1 = false) →
     let popped := fun (u : State) => u.tile t = { s.tile t with dm := rest } ∧ memSame s u ∧
       ∀ k, k ≠ t.val → u.tile k = s.tile k
     (c.work = .signal n v → s.waitMet t c = true → ∃ u, completes (.dmQueueHeadStart t) s u ∧ popped u ∧
       u.ctr n = s.ctr n + v ∧ regsBut [0x500000 + n * 0x10] s u) ∧
     (c.work = .cset n v → s.waitMet t c = true → ∃ u, completes (.dmQueueHeadStart t) s u ∧ popped u ∧
       u.ctr n = v ∧ regsBut [0x500000 + n * 0x10] s u) ∧
     (c.work = .waitge n v → s.waitMet t c = true → v.toNat ≤ (s.ctr n).toNat →
       ∃ u, completes (.waitgeRelease t) s u ∧ popped u ∧ regsBut [] s u) ∧
     (c.work = .waitge n v → s.waitMet t c = true → (s.ctr n).toNat < v.toNat → completes (.waitgeRelease t) s s) ∧
     (c.work = .signal n v ∨ c.work = .cset n v ∨ c.work = .waitge n v → s.waitMet t c = false →
       completes (.dmQueueHeadStart t) s (s.count64 (0x1000000 + t.val * 0x10000 + 0x60) 1))) ∧
  (∀ (s : State) (t : TileId) (c : QCmd) (rest : List QCmd) (ch desc : Nat) (r : Option (Nat × Nat)) (force regsp : Bool),
     (s.tile t).dm = c :: rest → s.tileOn t = true → c.work = .xfer ch desc r force regsp → s.ecc = [] →
     (s.tile t).dmHeld c = false → s.xferRoom t ch = true → s.waitMet t c = true → desc % 64 = 0 →
     desc + 64 ≤ 0x600000 →
     ∃ u d, completes (.dmQueueHeadStart t) s u ∧ d.origin = .xfer c.seq desc regsp force ∧
       d.words = descWords (s.sp t desc 64) ∧ (u.chan (4 * t.val + ch)).flight = insertXfer d (s.chan (4 * t.val + ch)).flight ∧
       u.tile t = { s.tile t with dm := rest, dmFlight := (s.tile t).dmFlight ++ [c] } ∧
       u = { s with tiles := u.tiles, chans := u.chans } ∧ (∀ k, k ≠ t.val → u.tile k = s.tile k) ∧
       ∀ k, k ≠ 4 * t.val + ch → u.chan k = s.chan k)

/-! ### The matrix units (04_matrix_units.md, 05_backward_engines.md) -/

/-- MATRIX_COMMAND_START (R118, R135, R137, R175): the head of the queue of a free unit starts when nothing holds it
and its event wait is met: it leaves the queue. A product or drain without rows or columns has nothing to do; one with
an extent outside the scratchpad ends with BOUNDS before anything is read; any other has halves to work on. A cycle in
which the interlock, a stencil slot or the adder holds the head counts as interlock wait, also while the unit is busy, one
in which only its event does counts as event wait. SWEEP_BOUNDARY_ABORT and MATRIX_COMMAND_RETIRE (R135, R140, R176, R178): at a sweep
boundary a requested abort stops the feeder with ABORTED; a command with nothing left leaves its unit, its status
stands in the unit's register, a result status counts its event and joins its task's status. -/
def Obligations.MatrixCommandsStartAndEnd : Prop :=
  (∀ (s : State) (t : TileId) (u : MUnit) (c : QCmd) (rest : List QCmd), s.tileOn t = true →
     ((s.tile t).unit u).queue = c :: rest →
     (s.runOf t u = none → (s.tile t).headHeld c = false → s.waitMet t c = true →
       ∃ v r, completes (.matrixCommandStart t u) s v ∧ (v.tile t).unit u = ⟨rest, some r⟩ ∧ onlyUnit t u s v ∧
         r.cmd = c ∧ r.stop = none ∧ r.pipe = [none, none, none, none] ∧
         ∀ op p, c.work = .mm op p →
           (p.m = 0 ∨ p.n = 0 → r.finished = true ∧ r.res = .ok) ∧
           (p.m ≠ 0 → p.n ≠ 0 → (∃ e ∈ mmExtents op p, 0x600000 < e.1 + e.2) → r.finished = true ∧ r.res = .bounds) ∧
           (p.m ≠ 0 → p.n ≠ 0 → (∀ e ∈ mmExtents op p, e.1 + e.2 ≤ 0x600000) →
             (p.k ≠ 0 ∨ op = .drain ∨ p.overwrite = true ∨ p.drain = true) → r.finished = false ∧ r.res = .ok ∧ r.halves ≠ [])) ∧
     ((s.tile t).headHeld c = true → completes (.matrixCommandStart t u) s (s.count64 (uReg t u 0x38) 1)) ∧
     (s.runOf t u = none → (s.tile t).headHeld c = false → s.waitMet t c = false →
       completes (.matrixCommandStart t u) s (s.count64 (0x1000000 + t.val * 0x10000 + 0x60) 1)) ∧
     (s.runOf t u ≠ none → (s.tile t).headHeld c = false → completes (.matrixCommandStart t u) s s)) ∧
  (∀ (s : State) (t : TileId) (u : MUnit) (r : MRun), s.tileOn t = true → s.runOf t u = some r →
     (r.abortReq = true → r.fedCols = 0 → r.stop = none → r.finished = false → 0 < r.sweeps →
       ∃ v r', completes (.sweepBoundaryAbort t u) s v ∧ v.runOf t u = some r' ∧ r'.stop = some .aborted ∧
         r'.res = r.res.merge .aborted ∧ onlyUnit t u s v) ∧
     (r.abortReq = false → completes (.sweepBoundaryAbort t u) s s) ∧
     (r.finished = true → r.res.isFault = false → r.cmd.hdr.sigEv < 16 →
       ∃ v, completes (.matrixCommandRetire t u) s v ∧ v.runOf t u = none ∧
         ((v.tile t).unit u).queue = ((s.tile t).unit u).queue ∧ field (v.reg (uReg t u 0)) 10 3 = r.res.code ∧
         v.ev t r.cmd.hdr.sigEv = (if r.cmd.hdr.sigEn then s.ev t r.cmd.hdr.sigEv + 1 else s.ev t r.cmd.hdr.sigEv) ∧
         onlyTileAnd t [uReg t u 0, evReg t r.cmd.hdr.sigEv] s v ∧
         ∀ i, (s.tile t).bankOf r.cmd.cid = some i → ((s.tile t).bank i).faulted = false →
           ((v.tile t).bank i).worst = ((s.tile t).bank i).worst.merge r.res) ∧
     (r.finished = false → completes (.matrixCommandRetire t u) s s))

/-- STATIONARY_LOAD_DONE, STREAM_LOAD_DONE, ANCHOR_SCAN_DONE and Z_HALF_BLOCK_LOAD (R122 to R125, R131, R153, R453):
the next stationary block, of operand A, with its checksum row; the next sweep's columns of B, which before a group's first
sweep follow the anchor scan; the anchor of R96 for each half of the group that waits for one; and, once its load may
start, the next half-block of z. When loads start and how many run ahead is the model's choice (log 36). -/
def Obligations.MatrixLoads : Prop :=
  ∀ (s : State) (t : TileId) (u : MUnit) (r : MRun) (op : MOp) (p : MPlate), s.working t u r op p →
    (∀ x, op ≠ .drain → 0 < r.sweeps → nextBlock p 1024 r.statNext = some x → r.stat.length < 2 →
      let w := sweepAt p x
      let a := opndA op p
      let i := rowRange p w.p
      let k := kRange p w.ks
      let rows := (span i.1 i.2).map fun i => (span k.1 k.2).map fun k => a.elem s t i k w.i
      completes (.stationaryLoadDone t u) s ((s.count (uReg t u 0x48) (a.badRecs s t i.1 i.2 k.1 k.2)).putRun t u
        { r with statNext := x + 1, stat := r.stat ++ [⟨x, w.p, w.ks, w.i, rows, checksumRow rows k.2⟩] })) ∧
    (r.streamNext < r.sweeps → r.stream.length < 2 → r.scanFirst r.streamNext = false →
      let w := sweepAt p r.streamNext
      let b := opndB op p
      let j := colRange p w.g
      let k := kRange p w.ks
      ∃ v r', completes (.streamLoadDone t u) s v ∧ v.runOf t u = some r' ∧ r'.streamNext = r.streamNext + 1 ∧
        (∃ h, r'.stream = r.stream ++ [h] ∧ h.sweep = r.streamNext ∧
          h.cols.map (·.elems) = (span j.1 j.2).map fun i => (span k.1 k.2).map fun k => b.elem s t i k w.j) ∧
        onlyTileAnd t [uReg t u 0x48] s v) ∧
    (∀ x, (r.halves.find? fun x => !x.anchored) = some x → r.sweeps ≠ 0 → needsScan p = true →
      (∀ y ∈ r.halves, sameGroup y x = true → y.hdrRead = true) →
      completes (.anchorScanDone t u) s (s.putRun t u { r with
        halves := r.halves.map fun y =>
          if sameGroup y x = true ∧ y.anchored = false then
            { y with
              anchored := true
              anchor := anchorOf s t op p (span (64 * x.p) (min 64 (p.m - 64 * x.p)))
                (span (128 * y.g + 64 * y.h) y.nt) }
          else y })) ∧
    (∀ x, u = .b0 → p.deriv = true → r.z.length < 4 →
      (r.halves.find? fun x => !x.noDrain && !r.z.any fun z => z.p == x.p && z.g == x.g && z.h == x.h) = some x →
      r.zDue p x = true →
      completes (.zHalfBlockLoad t false) s (s.putRun t .b0 { r with z := r.z ++ [⟨x.p, x.g, x.h, zValues s t p x⟩] }))

/-- HEADER_CYCLE, WINDOW_FILL and WINDOW_SPILL (R92, R93, R121, R132, R207): a half whose header is due has it written, 64
bytes at the tile's 0x10400, and (but for an ACC.DRAIN) its tag plane; where none is due, the first half that waits for its
header reads it with its tags; a half fills its next free column, the 64 elements of the tile's column as they stand; a
closed column is written back element by element, 16 bytes each, and no other byte changes. A half whose tile the adder
holds waits (R248; log 141). -/
def Obligations.MatrixWindow : Prop :=
  ∀ (s : State) (t : TileId) (u : MUnit) (r : MRun) (op : MOp) (p : MPlate) (x : HalfRun) (b : Nat),
    s.working t u r op p → x.base = some b →
    let due := fun (x : HalfRun) => x.headerReady op p && !(s.tile t).adderHasHalf x
    (r.halves.find? due = some x → op ≠ .drain →
      ∃ v, completes (.headerCycle t u) s v ∧
        v.bytes (0xF00000000000 + t.val * 0x1000000 + b + 0x10400) 64 = hdrBytes (x.header p) ∧
        v.bytes (0xF00000000000 + t.val * 0x1000000 + b + 0x10000) 1024 =
          tagPlane (if x.clears p then [] else x.tag) ∧
        memBut (0xF00000000000 + t.val * 0x1000000 + b + 0x10000) 1088 s v ∧ regsBut [] s v) ∧
    (r.halves.find? due = none →
      (r.halves.find? fun x => !x.hdrRead && headerDue x r.halves && !(s.tile t).adderHasHalf x) = some x →
      x.hdrDone = false → op ≠ .drain →
      let h := hdrOf (s.bytes (0xF00000000000 + t.val * 0x1000000 + b + 0x10400) 64)
      ∃ v r' y, completes (.headerCycle t u) s v ∧ v.runOf t u = some r' ∧ y ∈ r'.halves ∧ y.hdrRead = true ∧
        y.sat = h.sat ∧ y.inexact = h.inexact ∧ y.nan = h.nan ∧ y.chk = h.chk ∧ y.fault = h.fault ∧
        y.sentinel = h.sentinel ∧ y.tag = s.tagsAt t b ∧ (y.noDrain = true ↔ h.fault ≠ 0) ∧
        (h.anchored = true → y.anchored = true ∧ y.anchor = h.anchor) ∧ onlyUnit t u s v) ∧
    ((r.halves.find? fun x => (x.hdrRead || op != .drain) && !x.fresh && decide (x.filled < x.nt) &&
        colFree p x x.filled 0 r.halves && !(s.tile t).adderHasHalf x) = some x →
      completes (.windowFill t u) s (s.putRun t u { r with
        halves := putHalf r.halves { x with
          filled := x.filled + 1
          closed := if op = .drain then x.filled + 1 else x.closed
          acc := putElems x.acc (s.columnAt t b x.filled) } })) ∧
    ((r.halves.find? fun x => x.spillReady op p && !(s.tile t).adderHasHalf x) = some x → x.spilled < 64 →
      x.spilled ∉ x.skip →
      ∃ v, completes (.windowSpill t u false) s v ∧
        (∀ k, k < 64 → v.bytes (0xF00000000000 + t.val * 0x1000000 + b + 16 * (64 * k + x.spilled)) 16 =
          natLe 16 (unsigned 128 (if op = .drain ∨ x.clears p = true ∨ x.nt ≤ x.spilled then 0
            else tget (fun _ => 0) x.acc (64 * k + x.spilled)))) ∧
        (∀ a, (∀ k, k < 64 → a < 0xF00000000000 + t.val * 0x1000000 + b + 16 * (64 * k + x.spilled) ∨
          0xF00000000000 + t.val * 0x1000000 + b + 16 * (64 * k + x.spilled) + 16 ≤ a) → v.byte a = s.byte a) ∧
        regsBut [] s v) ∧
    ((r.halves.find? fun x => x.spillReady op p && !(s.tile t).adderHasHalf x) = some x → x.spilled ∉ x.skip →
      ∃ v r', completes (.windowSpill t u true) s v ∧ v.runOf t u = some r' ∧ r'.stop = some .chk ∧
        r'.res = r.res.merge .chk ∧ memSame s v)

/-- MATRIX_PIPELINE_CYCLE (R99, R100, R126 to R129, R454 to R456): in every cycle of a unit at work the columns in flight
advance one stage, and READ's is multiplied. The feeder then reads the next column, counted, when nothing makes it wait,
or leaves a bubble, counted by its cause once the first column has entered. A column that leaves CHK joins its half with
saturating sums; one that a check struck does not, and a check ends the command. How far ahead the feeder looks at window
and drain is the model's choice (log 146). -/
def Obligations.MatrixPipeline : Prop :=
  (∀ (s : State) (t : TileId) (u : MUnit) (r : MRun) (op : MOp) (p : MPlate) (rd mu tr ck : Option PipeCol),
      s.working t u r op p → r.pipe = [rd, mu, tr, ck] → r.upToDate p →
    let r1 := ({ r with cycle := r.cycle + 1, drainHold := r.drainHold - 1 } : MRun).advance p
    let why := r1.bubble p (s.level 0 (t.val / 64)) (s.tile t).adderHasHalf
    let feeds := r.fed < r.sweeps ∧ (r.abortReq = false ∨ r.fedCols ≠ 0)
    (∃ v r', completes (.matrixPipelineCycle t u none) s v ∧ v.runOf t u = some r' ∧ r'.cycle = r.cycle + 1 ∧
      r'.pipe.drop 1 = [rd.map (r.multiply p), mu, tr] ∧ r'.stop = none ∧
      onlyTileAnd t [uReg t u 0x10, uReg t u 0x48, uReg t u 8, uReg t u 0x18, uReg t u 0x20, uReg t u 0x28, uReg t u 0x30]
        s v ∧
      (feeds → why = none → ∃ h ∈ r.stream, h.sweep = r.fed ∧
        r'.pipe.head? = some (some ⟨r.fed, r.fedCols, (h.cols.getD r.fedCols ⟨[], 0⟩).elems, [], false, none⟩) ∧
        (r'.fed, r'.fedCols) = (if sweepCols p (sweepAt p r.fed).g ≤ r.fedCols + 1 then (r.fed + 1, 0)
          else (r.fed, r.fedCols + 1)) ∧
        (v.reg (uReg t u 0x10)).toNat = min ((s.reg (uReg t u 0x10)).toNat + 1) 0xFFFFFFFFFFFFFFFF)) ∧
    (∀ cause, feeds → why = some cause → 0 < r.fed + r.fedCols →
      completes (.matrixPipelineCycle t u none) s ((s.count64 (uReg t u (bubbleReg cause)) 1).putRun t u r1)) ∧
    (¬ feeds → completes (.matrixPipelineCycle t u none) s (s.putRun t u r1))) ∧
  (∀ (r : MRun) (p : MPlate) (rd mu tr : Option PipeCol) (c : PipeCol) (x : HalfRun), r.pipe = [rd, mu, tr, some c] →
    r.halfOf (sweepAt p c.sweep) c.col = some x → r.halves = [x] → ∃ y, (r.advance p).halves = [y] ∧
      (c.bad = none →
        (∀ (k : Nat) q, c.parts[k]? = some q → tget (fun _ => 0) y.acc (64 * k + c.col % 64) =
          max (1 - 2 ^ 127) (min (2 ^ 127 - 1) (tget (fun _ => 0) x.acc (64 * k + c.col % 64) + q.1)) ∧
          tget (fun _ => 0) y.tag (64 * k + c.col % 64) = tagAdd (tget (fun _ => 0) x.tag (64 * k + c.col % 64)) q.2) ∧
        ∀ n, n % 64 ≠ c.col % 64 → tget (fun _ => 0) y.acc n = tget (fun _ => 0) x.acc n) ∧
      (c.bad ≠ none → y.acc = x.acc ∧ y.tag = x.tag ∧ y.chk = true)) ∧
  (∀ (s : State) (t : TileId) (u : MUnit) (r : MRun) (op : MOp) (p : MPlate) (rd mu tr ck : Option PipeCol)
      (k : ChkKind) (c : PipeCol), s.working t u r op p → r.pipe = [rd, mu, tr, ck] → r.upToDate p →
    (if k = .parity then rd else if k = .win then ck else if k = .drain then none else tr) = some c →
    ∃ v r', completes (.matrixPipelineCycle t u (some k)) s v ∧ v.runOf t u = some r' ∧ r'.stop = some .chk ∧
      memSame s v ∧ (v.reg (0x1000000 + t.val * 0x10000 + 0x4010 + 4 * chkNum k)).toNat =
        min ((s.reg (0x1000000 + t.val * 0x10000 + 0x4010 + 4 * chkNum k)).toNat + 1) 0xFFFFFFFF)

/-- DRAIN_COLUMN and STAGING_BLOCK_WRITE (R109, R110, R133, R148, R150, R153, R459): while no earlier column still takes the
drain, the first closed column of a half that drains goes out: in a wide format each of its elements is written at once,
and the drain is taken for one cycle per 256 bytes; in a narrow one with blocks along rows it joins a staging block; a
duplicate that fails writes nothing and ends the command; a derivative drain whose z is not loaded waits, counted. The first
complete staging block writes one column at a time, and leaves with its last. -/
def Obligations.MatrixDrain : Prop :=
  ∀ (s : State) (t : TileId) (u : MUnit) (r : MRun) (op : MOp) (p : MPlate) (x : HalfRun), s.working t u r op p →
    (r.drainHold = 0 → (r.halves.find? fun x => x.opened && x.drains p && decide (x.drained < x.nt) &&
        decide (x.drained < x.closed)) = some x →
      let ready := p.deriv = false ∨ (r.z.any fun z => z.p == x.p && z.g == x.g && z.h == x.h) = true
      (¬ ready → completes (.drainColumn t u false) s (s.count64 (0x1000000 + t.val * 0x10000 + 0x8308) 1)) ∧
      (ready → ∃ v r', completes (.drainColumn t u true) s v ∧ v.runOf t u = some r' ∧ r'.stop = some .chk ∧ memSame s v) ∧
      (ready → isNarrow p.ofmt = false → p.zout = false →
        let values := (List.range x.mt).map fun i => r.value (s.tile t) x i x.drained
        let y := { x with
          drained := x.drained + 1
          drainMax := maxCode32 x.drainMax (columnMax values)
          codes := if x.drained = 0 then some [] else x.codes }
        completes (.drainColumn t u false) s
          ((s.putCells t (fmtBits p.ofmt) (values.zipIdx.map fun (v, i) =>
            (outCell op p (64 * x.p + i) (128 * x.g + 64 * x.h + x.drained),
              (convElem p.ofmt false (x.quot p i x.drained v).2 (x.quot p i x.drained v).1).code))).putRun t u
            { r with
              halves := putHalf r.halves y
              res := if x.nt ≤ x.drained + 1 then r.res.merge (stickyStatus x.sat x.inexact) else r.res
              drainHold := ceilDiv (elemBytes (fmtBits p.ofmt) x.mt) 256 - 1 })) ∧
      (ready → outStaged op p = true → p.zout = false → ∀ b, r.stageFor x x.drained = some b →
        ∃ v r', completes (.drainColumn t u false) s v ∧ v.runOf t u = some r' ∧ memSame s v ∧ regsBut [] s v ∧
          (b.count + 1 < 32 → b.first + b.count + 1 ≠ x.nt → x.cut = false →
            { b with count := b.count + 1, complete := false } ∈ r'.stage))) ∧
    (∀ b, r.stage.find? (·.complete) = some b → (r.halves.find? fun x => x.p == b.p && x.g == b.g && x.h == b.h) = some x →
      completes (.stagingBlockWrite t u) s ((s.stageColumn t u r x b).putRun t u { r with
        stage := if b.count ≤ b.written + 1 then r.stage.filter fun y => y != b
          else r.stage.map fun y => if y = b then { b with written := b.written + 1 } else y }))

/-! ### Tasks, instruction memory and local events (06_tile_processor.md) -/

/-- TILE_EV_WRITE, ALL_FWD_WRITE, MODE_SWITCH and IMEM_HOST_WRITE (R160, R178, R183, R185, R192): on the kernel path,
at the offset that a partition's offset stands for, a write of TILE_EVn sets that counter; a write of TILE_BWD_MODE
requests a mode, pending while it differs from the one in effect; the mode takes effect once B0 and B1 are empty and no
bundle that issued before has an S5 command to put there; bytes written into instruction memory land unless a pin covers
some of them, and are then dropped and counted. -/
def Obligations.TileRegistersFromOutside : Prop :=
  (∀ (s : State) (p : Path) (t : TileId) (v : BitVec 32),
    (∀ (n : Fin 16) (o : Nat), s.kernelOff p (0x1000000 + t.val * 0x10000 + 0x100 + 4 * n.val) = some o →
      ∃ u, completes (.tileEvWrite p t n v) s u ∧ u.reg o = v.setWidth 64 ∧ onlyRegs [o] s u) ∧
    (∀ o, s.kernelOff p (0x1000000 + t.val * 0x10000 + 0x8300) = some o →
      ∃ u, completes (.allFwdWrite p t v) s u ∧ onlyRegs [o] s u ∧ flag (u.reg o) 0 = v.getLsbD 0 ∧
        flag (u.reg o) 1 = (v.getLsbD 0 != flag (s.reg o) 2) ∧ flag (u.reg o) 2 = flag (s.reg o) 2) ∧
    (s.kernelPath p = none → (∀ n : Fin 16, completes (.tileEvWrite p t n v) s s) ∧ completes (.allFwdWrite p t v) s s)) ∧
  (∀ (s : State) (p : Path) (a : Nat) (t : TileId) (off : Nat) (bs : List Byte), 0 < bs.length → bs.length ≤ 512 →
    off + bs.length ≤ 0x10000 → s.kernelOff p a = some (0x2000000 + t.val * 0x10000 + off) →
    ((s.tile t).pinMeets off bs.length = false →
      ∃ u, completes (.imemHostWrite p a bs) s u ∧
        u.bytes (0xF80002000000 + t.val * 0x10000 + off) bs.length = bs ∧
        memBut (0xF80002000000 + t.val * 0x10000 + off) bs.length s u ∧ regsBut [] s u) ∧
    ((s.tile t).pinMeets off bs.length = true →
      completes (.imemHostWrite p a bs) s
        ((s.count (0x1000000 + t.val * 0x10000 + 0x14) 1).putBit (0x1000000 + t.val * 0x10000) 4 true))) ∧
  (∀ (s : State) (t : TileId),
    let o := 0x1000000 + t.val * 0x10000 + 0x8300
    let quiet := (s.tile t).b0 = ⟨[], none⟩ ∧ (s.tile t).b1 = ⟨[], none⟩ ∧ (s.tile t).s5Open = false
    (flag (s.reg o) 1 = true → quiet → ∃ u, completes (.modeSwitch t) s u ∧ onlyRegs [o] s u ∧
      flag (u.reg o) 2 = flag (s.reg o) 0 ∧ flag (u.reg o) 1 = false ∧ flag (u.reg o) 0 = flag (s.reg o) 0) ∧
    (¬ quiet → completes (.modeSwitch t) s s))

/-- LAUNCH, PRELOAD_COMPLETE, TASK_SWITCH and TASK_COMPLETE (R163, R170 to R173, R464): a tile that is in service
takes a launch; a preload puts the parameter block's words into the registers of the idle bank; the preloaded task
starts once the tile stands between tasks, a SERIAL one only after an unfailed predecessor; a task whose work is done
completes with its status and frees its bank. A retired tile answers a launch with CHK. -/
def Obligations.TasksRunThroughTheBanks : Prop :=
  (∀ (s : State) (c : Cmd), s.passed c.cid 0x10 = some c →
    (s.dieLost (c.engine / 64) = false → s.retired c.engine = false →
      completes (.launch c.cid) s (((s.taken c).setCmd { c with phase := .running }).setTile c.engine
        { s.tile c.engine with launches := (s.tile c.engine).launches ++ [c.cid] })) ∧
    (s.dieLost (c.engine / 64) = false → s.retired c.engine = true →
      completes (.launch c.cid) s ((s.taken c).finish c.cid .chk)) ∧
    (s.dieLost (c.engine / 64) = true → completes (.launch c.cid) s ((s.taken c).finish c.cid .dieLost))) ∧
  (∀ (s : State) (t : TileId) (c : Cmd) (rest : List Nat) (i : Bool), (s.tile t).launches = c.cid :: rest →
    (s.tile t).idleBank (flag (s.reg 0xA0010) 0) = some i → s.cmd? c.cid = some c → c.phase = .running → s.ecc = [] →
    let loads := fun (block : List Byte) => ∃ u, completes (.preloadComplete t false) s u ∧ (u.tile t).launches = rest ∧
      ((u.tile t).bank i).phase = .preloaded ∧ ((u.tile t).bank i).pc = c.entry ∧
      ((u.tile t).bank i).pinBase = c.pinBase ∧ ((u.tile t).bank i).pinLen = c.pinLen ∧
      ((u.tile t).bank i).cid = c.cid ∧ ((u.tile t).bank i).kernel = c.kernel ∧
      (∀ k, k < 32 → tget (fun _ => 0) ((u.tile t).bank i).s k = BitVec.ofNat 64 (bytesN block (8 * k + 7) (8 * k)) ∧
        tget (fun _ => 0) ((u.tile t).bank i).a k =
          BitVec.ofNat 52 (bytesN block (8 * (32 + k) + 7) (8 * (32 + k))) ∧
        tget (fun _ => 0) ((u.tile t).bank i).d k =
          BitVec.ofNat 52 (bytesN block (8 * (64 + k) + 7) (8 * (64 + k)))) ∧
      (u.tile t).bank (!i) = (s.tile t).bank (!i) ∧ memSame s u ∧ ∀ k, k ≠ t.val → u.tile k = s.tile k
    (c.paramLen = 0 → loads []) ∧
    (∀ a, s.physAddr c.part c.param = some a → (s.region a).isData t = true → s.extentOk a c.paramLen = true →
      s.reachAll (t.val / 64) a c.paramLen = .ok → s.cxl = [] → loads (s.bytes a c.paramLen)) ∧
    (c.paramLen ≠ 0 → (∀ a, s.physAddr c.part c.param = some a → (s.region a).isData t = false) →
      completes (.preloadComplete t false) s
        ((s.setTile t { s.tile t with launches := rest, predBad := true }).finish c.cid .bounds))) ∧
  (∀ (s : State) (t : TileId) (i : Bool), ((s.tile t).bank i).phase = .preloaded →
    (i = false → (s.tile t).bank1.phase ≠ .preloaded) → (s.tile t).between = true → s.tileOn t = true →
    s.retired t = false →
    let b := (s.tile t).bank i
    let free := (s.tile t).cur.phase = .free ∨ (s.tile t).active = i
    (b.serial = false ∨ (free ∧ b.predBad = false ∧ (s.tile t).prevBad = false) →
      completes (.taskSwitch t) s (s.setTile t { (s.tile t).setBank i { b with phase := .issuing } with active := i })) ∧
    (b.serial = true → free → b.predBad = true ∨ (s.tile t).prevBad = true →
      completes (.taskSwitch t) s ((s.setTile t { (s.tile t).setBank i Bank.reset with prevBad := true }).finish b.cid
        .aborted)) ∧
    (b.serial = true → ¬ free → completes (.taskSwitch t) s s)) ∧
  (∀ (s : State) (t : TileId) (i : Bool), (s.tile t).doneBank = some i →
    let b := (s.tile t).bank i
    ∃ u, completes (.taskComplete t) s u ∧ (u.tile t).bank i = Bank.reset ∧
      (u.tile t).bank (!i) = (s.tile t).bank (!i) ∧ u.cmds = (s.finish b.cid b.worst).cmds ∧
      u = { s with tiles := u.tiles, cmds := u.cmds } ∧ ∀ k, k ≠ t.val → u.tile k = s.tile k)

/-! ### The vector unit (08_vector_unit.md) -/

/-- The rows of the vector unit (R175, R217 to R231, R238): a command starts as a matrix command does; a tile that
holds a fault ends a drain of it with that status; a chunk enters in an open cycle and its codes are those of the
operation's results divided by T_dst and converted, in order; a chunk that entered is written; and a command with
nothing left to enter or to write retires. A table record reaches its slot, an invalid one as an empty slot. -/
def Obligations.VectorCommands : Prop :=
  (∀ (s : State) (t : TileId) (c : QCmd) (rest : List QCmd) (op : VOp) (p : VPlate), s.tileOn t = true → s.ecc = [] →
    (s.tile t).vq = c :: rest → c.work = .vop op p →
    ((s.tile t).vrun = none → (s.tile t).headHeld c = false → s.waitMet t c = true → ∃ u r, completes (.vectorCommandStart t) s u ∧
      u.tile t = { s.tile t with vq := rest, vrun := some r } ∧ onlyTile t s u ∧ r.cmd = c ∧ r.entered = 0 ∧
      r.pend = [] ∧ (op ≠ .tload →
        (p.rows = 0 ∨ p.cols = 0 → r.finished = true ∧ r.res = .ok) ∧
        (p.rows ≠ 0 → p.cols ≠ 0 → (∃ e ∈ vopExtents op p, 0x600000 < e.1 + e.2) →
          r.finished = true ∧ r.res = .bounds) ∧
        (p.rows ≠ 0 → p.cols ≠ 0 → (∀ e ∈ vopExtents op p, e.1 + e.2 ≤ 0x600000) →
          let fault := s.spNum t (p.xBase + 0x10403) 1
          (p.accX = false ∨ fault = 0 → r.finished = false ∧ r.res = .ok) ∧
          (p.accX = true → fault ≠ 0 → r.finished = true ∧ r.res = Status.ofCode fault)))) ∧
    ((s.tile t).headHeld c = true →
      completes (.vectorCommandStart t) s (s.count64 (0x1000000 + t.val * 0x10000 + 0x1010) 1)) ∧
    ((s.tile t).vrun = none → (s.tile t).headHeld c = false → s.waitMet t c = false →
      completes (.vectorCommandStart t) s (s.count64 (0x1000000 + t.val * 0x10000 + 0x60) 1))) ∧
  (∀ (s : State) (t : TileId) (run : VRun) (op : VOp) (p : VPlate), s.tileOn t = true → s.ecc = [] →
    (s.tile t).vrun = some run → run.cmd.work = .vop op p → (s.tile t).spWait = [] →
    (run.finished = false → run.stop = none → run.abortReq = false → run.entered < chunkCount op p →
      (dutyOpen (s.level 0 (t.val / 64)) (run.cycle + 1) = false → ∃ u, completes (.vectorChunk t false false) s u ∧
        u.tile t = { s.tile t with vrun := some { run with cycle := run.cycle + 1 } } ∧
        onlyTileAnd t [0x1000000 + t.val * 0x10000 + 0x1010] s u) ∧
      (dutyOpen (s.level 0 (t.val / 64)) (run.cycle + 1) = true → op ≠ .tload →
        ∃ u r w, completes (.vectorChunk t false false) s u ∧ (u.tile t).vrun = some r ∧
          r.entered = run.entered + 1 ∧ r.pend = run.pend ++ [w] ∧ w.chunk = run.entered ∧ r.stop = none ∧
          onlyTileAnd t [0x1000000 + t.val * 0x10000 + 0x1008, 0x1000000 + t.val * 0x10000 + 0x1020] s u ∧
          (op.reduces = false → p.accX = false → p.fmtD ≠ 10 → p.dScaled = false →
            let row := run.entered / ceilDiv p.cols 128
            let c0 := run.entered % ceilDiv p.cols 128 * 128
            w.writes = [(p.dBase + row * p.dStride + c0 * fmtBits p.fmtD / 8, packCodes (fmtBits p.fmtD)
              ((List.range (min 128 (p.cols - c0))).map fun i => (convElem p.fmtD false
                (rndOf p.rnd p.seed p.tid (row * p.cols + c0 + i))
                ((s.lane t op p row (c0 + i)).div (fp32 p.tdst))).code))])) ∧
      (dutyOpen (s.level 0 (t.val / 64)) (run.cycle + 1) = true → op.residue = true →
        ∃ u r, completes (.vectorChunk t true false) s u ∧ (u.tile t).vrun = some r ∧ r.stop = some .chk ∧
          r.pend = run.pend ∧ memSame s u) ∧
      (dutyOpen (s.level 0 (t.val / 64)) (run.cycle + 1) = true → op = .tload →
        let bytes := s.sp t p.xBase (recLength (s.sp t p.xBase 64))
        p.xBase + recLength (s.sp t p.xBase 64) ≤ 0x600000 →
          ∃ u r, completes (.vectorChunk t false false) s u ∧ (u.tile t).vrun = some r ∧ r.entered = 1 ∧
            r.slotRec = some (if recValid bytes then bytes else []) ∧ memSame s u)) ∧
    (∀ w rest, run.pend = w :: rest → completes (.vectorChunkWrite t) s
      ((((w.writes.foldl (fun s e => s.spWrite t e.1 e.2) s).count (0x1000000 + t.val * 0x10000 + 0x1018) w.sats).count
        (0x1000000 + t.val * 0x10000 + 0x101C) w.nans).setTile t
          { s.tile t with vrun := some { run with pend := rest } })) ∧
    (run.pend = [] → run.stop = none → run.finished = false → run.abortReq = false → chunkCount op p ≤ run.entered →
      p.accX = false → run.res.isFault = false → run.cmd.hdr.sigEn = false →
      ∃ u, completes (.vectorCommandRetire t) s u ∧ (u.tile t).vrun = none ∧
        field (u.reg (0x1000000 + t.val * 0x10000 + 0x1000)) 9 2 = run.res.code ∧
        onlyTileAnd t [0x1000000 + t.val * 0x10000 + 0x1000] s u ∧
        ∀ bs, run.slotRec = some bs → tget (fun _ => []) (u.tile t).slots (p.stencil - 128) = bs))

/-! ### Scratchpad and adder (09_scratchpad_dma.md) -/

/-- SCRATCHPAD_GRANT (R241, R243, R245): each port none of whose words still waits presents its request, of at most its
width; of those words and the ones that wait, each sub-bank grants one at most, and one that is refused waits a cycle
longer and counts as a loss. An error that strikes a word in the cycle stays in it, and heals none. -/
def Obligations.ScratchpadGrants : Prop :=
  ∀ (s : State) (t : TileId) (reqs : List SpReq), ∃ u, completes (.scratchpadGrant t reqs none) s u ∧ memSame s u ∧
    onlyTileAnd t [0x1000000 + t.val * 0x10000 + 0x2010, 0x1000000 + t.val * 0x10000 + 0x1010] s u ∧
    (let waiting := (s.tile t).spWait
      let ws := waiting ++ presented waiting reqs
      let kept := fun (a : SpWait) => ({ a with age := a.age + 1 } : SpWait) ∈ (u.tile t).spWait
      (∀ a ∈ presented waiting reqs, a.age = 0 ∧ (∀ w ∈ waiting, w.port ≠ a.port) ∧
        ∃ r ∈ reqs, r.port.val = a.port ∧ r.word.val = a.word) ∧
      (∀ r ∈ reqs, (∀ w ∈ waiting, w.port ≠ r.port.val) →
        (reqs.filter fun x => x.port == r.port).length ≤ portWords r.port.val →
        (⟨r.port.val, r.word.val, 0⟩ : SpWait) ∈ presented waiting reqs) ∧
      (u.reg (0x1000000 + t.val * 0x10000 + 0x2010)).toNat =
        min ((s.reg (0x1000000 + t.val * 0x10000 + 0x2010)).toNat + (u.tile t).spWait.length) 0xFFFFFFFFFFFFFFFF ∧
      (∀ a ∈ ws, ∀ b ∈ ws, subBank a.word = subBank b.word → ¬ kept a → ¬ kept b → a = b) ∧
      (∀ a ∈ ws, kept a → ∃ b ∈ ws, subBank a.word = subBank b.word ∧ spBefore b a = true)) ∧
    ∀ w e, ∃ v, completes (.scratchpadGrant t reqs (some (w, e))) s v ∧ memSame s v ∧
      let a := 0xF00000000000 + t.val * 0x1000000 + 16 * w.val
      v.eccAt a = if e = .clean ∨ s.eccAt a = .uncorrectable then s.eccAt a else e

/-- A128_TILE_ADD and A128_ADD_DONE (R105, R245, R247, R248): a tile add whose destination no unit holds adds its
4,096 elements, each with saturation, and holds the tile until its header is written; a held destination is answered
with a retry. The header goes to the tile's 0x10400, the add is counted, and the descriptor that sent it is answered. -/
def Obligations.TileAdds : Prop :=
  (∀ (s : State) (t : TileId) (a : TileAdd) (rest : List TileAdd) (off : Nat), s.tileOn t = true →
    (s.tile t).spWait = [] → (s.tile t).adder = none → (s.tile t).adds = a :: rest → s.ecc = [] →
    a.burst.dst = 0xF00000000000 + t.val * 0x1000000 + off →
    let src := fun i => tget memDefault a.src i
    let dst := fun i => s.byte (a.burst.dst + i)
    let anchor := if (tileHdr dst).anchored then (tileHdr dst).anchor
      else if (tileHdr src).anchored then (tileHdr src).anchor else (tileHdr dst).anchor
    ((s.tile t).unitHolds.any (overlap (tileRange off)) = false →
      ∃ u run, completes (.a128TileAdd t) s u ∧ (u.tile t).adder = some run ∧ run.base = off ∧ run.own = a.own ∧
        (u.tile t).adds = rest ∧ memBut a.burst.dst 0x10400 s u ∧
        regsBut [0x1000000 + t.val * 0x10000 + 0x2000] s u ∧
        ∀ j, j < 4096 → tileElem (fun i => u.byte (a.burst.dst + i)) j =
          (addElem (tileElem dst j) (tileElem src j) ((tileHdr src).anchor - anchor)).1) ∧
    ((s.tile t).unitHolds.any (overlap (tileRange off)) = true →
      ∃ u, completes (.a128TileAdd t) s u ∧ (u.tile t).adds = rest ∧
        (u.chan a.own.ch).retry = (s.chan a.own.ch).retry ++ [a] ∧ memSame s u ∧
        regsBut [fabReg (t.val / 64) 0x20] s u)) ∧
  (∀ (s : State) (t : TileId) (a : AdderRun), (s.tile t).adder = some a → (s.tile t).spWait = [] →
    ∃ u, completes (.a128AddDone t) s u ∧ (u.tile t).adder = none ∧
      u.bytes (0xF00000000000 + t.val * 0x1000000 + a.base + 0x10400) a.header.length = a.header ∧
      memBut (0xF00000000000 + t.val * 0x1000000 + a.base + 0x10400) a.header.length s u ∧
      flag (u.reg (0x1000000 + t.val * 0x10000 + 0x2000)) 1 = false ∧
      (u.reg (0x1000000 + t.val * 0x10000 + 0x2018)).toNat =
        min ((s.reg (0x1000000 + t.val * 0x10000 + 0x2018)).toNat + 1) 0xFFFFFFFFFFFFFFFF ∧
      (u.chan a.own.ch).flight = (s.chan a.own.ch).flight.map (fun (d : Desc) =>
        if d.id = a.own.desc then d.answered a.status a.own.addr true else d) ∧
      regsBut [0x1000000 + t.val * 0x10000 + 0x2000, 0x1000000 + t.val * 0x10000 + 0x2018] s u)

/-! ### DMA (09_scratchpad_dma.md) -/

/-- DMA_CH_PROD_WRITE, DMA_CH_RING_BASE_WRITE, DMA_CH_RING_CFG_WRITE, DMA_RUN, DMA_ABORT, DMA_RESUME and RESTART
(R249, R261, R264, R265, R267, R270, R464), on the kernel path, of the channel or mover that the path's partition calls by
the number, and nothing where the path does not reach it: PROD is taken unless the ring would overflow, and is
then recorded as ignored; RING_BASE starts PROD and CONS at 0 while the channel does not run; RSIZE is taken while it
does not run and is legal, KERNEL always; RUN is written, but a retired tile's ring does not start; ABORT ends the
first descriptor with bursts to start, or the last where all have started (log 45), and entries of the ring behind it leave; RESUME ends a halt, on a mover only
once it is no longer stopped, which RESTART sees to. DMA_MEM_UE_RESPONSE, DMA_BUS_ERROR and MOVER_BUS_ERROR (R262 to
R264): the error response of a burst ends its descriptor with its status and halts a ring's channel, unless the status is
BOUNDS (R266); a bus error of a
user channel ends the descriptor that moves, halts the channel and latches the access; one of a mover ends every
descriptor in flight on its eight channels, halts them all and stops the mover. -/
def Obligations.ChannelsAreControlled : Prop :=
  (∀ (s : State) (p : Path) (n ch : ChanId), (∀ o ∈ [0, 8, 0xC, 0x14], s.kernelOff p (chanReg n o) = some (chanReg ch o)) →
     (∀ v : BitVec 32, completes (.dmaChProdWrite p n v) s
       (if 2 ^ field (s.reg (chanReg ch 8)) 4 0 < (v.setWidth 16 - s.cons ch).toNat then
         s.chanIgnored ch (v.toNat % 65536) .bounds false
       else (s.setReg (chanReg ch 0xC) ((v.setWidth 16).setWidth 64)).putBit (chanReg ch 0x18) 10 false)) ∧
     (∀ v : BitVec 64, s.running ch = false → ∃ u, completes (.dmaChRingBaseWrite p n v) s u ∧
       (u.reg (chanReg ch 0)).toNat = v.toNat % 2 ^ 52 / 64 * 64 ∧ u.prod ch = 0 ∧ u.cons ch = 0 ∧
       onlyRegs [chanReg ch 0, chanReg ch 0xC, chanReg ch 0x10] s u) ∧
     (∀ v : BitVec 64, s.running ch = true → completes (.dmaChRingBaseWrite p n v) s s) ∧
     (∀ v : BitVec 32, ∃ u, completes (.dmaChRingCfgWrite p n v) s u ∧ onlyRegs [chanReg ch 8] s u ∧
       flag (u.reg (chanReg ch 8)) 5 = v.getLsbD 5 ∧
       field (u.reg (chanReg ch 8)) 4 0 =
         (if s.running ch = false ∧ 1 ≤ v.toNat % 32 ∧ v.toNat % 32 ≤ 16 then v.toNat % 32
           else field (s.reg (chanReg ch 8)) 4 0)) ∧
     (∀ run, ∃ u, completes (.dmaRun p n run) s u ∧ onlyRegs [chanReg ch 0x14] s u ∧
       u.running ch = (if run = true ∧ ch.val < 512 ∧ s.retired (ch / 4) = true then s.running ch else run)) ∧
     (∀ pre d post, (s.chan ch).flight = pre ++ d :: post → (∀ e ∈ pre, e.unstarted = false) → d.unstarted = true →
       completes (.dmaAbort p n) s (s.setChan ch { s.chan ch with
         flight := pre ++ { d with status := d.status.merge .aborted, stop := true, fail := none, byReg := d.isRing } ::
           post.filter fun e => !e.isRing })) ∧
     (∀ pre d, (s.chan ch).flight = pre ++ [d] → (∀ e ∈ (s.chan ch).flight, e.unstarted = false) →
       completes (.dmaAbort p n) s (s.setChan ch { s.chan ch with
         flight := pre ++ [{ d.ended .aborted with byReg := d.isRing }] })) ∧
     ((s.chan ch).flight = [] → ∃ u, completes (.dmaAbort p n) s u ∧ u.chan ch = s.chan ch ∧
       u = { s with chans := u.chans }) ∧
     (s.halted ch = true → s.stopped ch = false → ∃ u, completes (.dmaResume p n) s u ∧ u.halted ch = false ∧
       flag (u.reg (chanReg ch 0x18)) 11 = false ∧ flag (u.reg (chanReg ch 0x20)) 53 = false ∧
       onlyRegs [chanReg ch 0x18, chanReg ch 0x20] s u) ∧
     (s.halted ch = false ∨ s.stopped ch = true → completes (.dmaResume p n) s s)) ∧
  (∀ (s : State) (p : Path) (n m : Fin 32), s.kernelOff p (moverReg n 0x10) = some (moverReg m 0x10) →
     ∃ u, completes (.restart p n) s u ∧ flag (u.reg (moverReg m 0)) 0 = false ∧
       flag (u.reg (moverReg m 8)) 53 = false ∧ onlyRegs [moverReg m 0, moverReg m 8] s u) ∧
  (∀ (s : State) (p : Path) (n : ChanId), (∀ o ∈ [0, 8, 0xC, 0x14], s.kernelOff p (chanReg n o) = none) →
     (∀ v, completes (.dmaChProdWrite p n v) s s) ∧ (∀ v, completes (.dmaChRingBaseWrite p n v) s s) ∧
     (∀ v, completes (.dmaChRingCfgWrite p n v) s s) ∧ (∀ run, completes (.dmaRun p n run) s s) ∧
     completes (.dmaAbort p n) s s ∧ completes (.dmaResume p n) s s) ∧
  ((∀ (s : State) (ch : ChanId) (pre post : List Desc) (d : Desc) (st : Status) (addr : Nat) (wr : Bool),
     (s.chan ch).flight = pre ++ d :: post → (∀ e ∈ pre, e.fail = none) → d.fail = some (st, addr, wr) →
     d.phase ≠ .done → d.stop = false → (∀ c, st ≠ .other c) →
     ∃ u, completes (.dmaMemUeResponse ch) s u ∧ memSame s u ∧
       (u.chan ch).flight = pre ++ { d with status := d.status.merge st, stop := true, fail := none } :: post ∧
       (d.isXfer = false → st ≠ .bounds → u.halted ch = true ∧ field (u.reg (chanReg ch 0x18)) 9 2 = st.code ∧
         regsBut [chanReg ch 0x18] s u) ∧
       (d.isXfer = true ∨ st = .bounds → regsBut [] s u ∧ u.out = s.out)) ∧
   (∀ (s : State) (ch : ChanId) (pre post : List Desc) (d : Desc) (addr : Addr) (wr : Bool), ch.val < 512 →
     (s.chan ch).flight = pre ++ d :: post → (∀ e ∈ pre, e.live = false) → d.live = true →
     ∃ u, completes (.dmaBusError ch addr wr) s u ∧ memSame s u ∧
       (u.chan ch).flight = pre ++ { d with status := d.status.merge .bus, stop := true, fail := none } :: post ∧
       (d.isXfer = false → u.halted ch = true ∧ field (u.reg (chanReg ch 0x18)) 9 2 = 5 ∧
         u.reg (chanReg ch 0x20) = BitVec.ofNat 64 (2 ^ 53 + (if wr then 2 ^ 52 else 0) + addr.toNat) ∧
         regsBut [chanReg ch 0x18, chanReg ch 0x20] s u)) ∧
   (∀ (s : State) (m : Fin 32) (addr : Addr) (wr : Bool),
     (∃ k, k < 8 ∧ (s.chan (512 + 8 * m.val + k)).flight ≠ []) →
     ∃ u, completes (.moverBusError m addr wr) s u ∧ memSame s u ∧ flag (u.reg (moverReg m 0)) 0 = true ∧
       u.reg (moverReg m 8) = BitVec.ofNat 64 (2 ^ 53 + (if wr then 2 ^ 52 else 0) + addr.toNat) ∧
       (∀ k, k < 8 → u.halted (512 + 8 * m.val + k) = true ∧
         (u.chan (512 + 8 * m.val + k)).flight = (s.chan (512 + 8 * m.val + k)).flight.map fun (d : Desc) =>
           d.ended .bus) ∧
       (∀ j, (j < 512 + 8 * m.val ∨ 520 + 8 * m.val ≤ j) → u.chan j = s.chan j)) ∧
   (∀ (s : State) (m : Fin 32) (addr : Addr) (wr : Bool), (∀ k, k < 8 → (s.chan (512 + 8 * m.val + k)).flight = []) →
     completes (.moverBusError m addr wr) s s))

/-- DESCRIPTOR_FETCH (R250, R258, R263 to R265): a channel that may fetch takes the next entry of its ring when the entry
belongs to the E8, as eight little-endian words, dropped with FORMAT where it is a host error, and its read leaves as
packets; an entry with OWN = 0 sets OWN_WAIT; an entry outside memory, or a bus error of the fetch, halts the channel with
FETCH_FAULT, and a bus error latches the address, of a mover channel stops the mover. DESCRIPTOR_COPY, DESCRIPTOR_ADD and
DESCRIPTOR_FILL (R256 to R258, R329): the next fetched descriptor starts, if it has that operation: one whose extents are in
order moves; one that reaches register space without the right is dropped with PRIV (a DMA.XFER: ends with BOUNDS); one out
of bounds ends with BOUNDS; one whose flow cannot serve it has that flow's error on its way. Nothing else changes. -/
def Obligations.DescriptorsAreFetchedAndStart : Prop :=
  (∀ (s : State) (ch : ChanId), s.mayFetch ch = true → s.split = false → s.ecc = [] →
     let i := s.cons ch + BitVec.ofNat 16 ((s.chan ch).flight.filter Desc.isRing).length
     let a := (s.reg (chanReg ch 0)).toNat + 64 * (i.toNat % 2 ^ field (s.reg (chanReg ch 8)) 4 0)
     let words := descWords (s.bytes a 64)
     let fresh := freshDesc (s.chan ch).nextId (.ring i) words
     let sent := s.send (chanSrc ch) a 64 true false
     (i = s.prod ch → completes (.descriptorFetch ch false) s s) ∧
     (i ≠ s.prod ch → a + 64 ≤ 0x8000000000 → (∀ k, k < 64 → s.reach (chanDie ch) (a + k) = .ok) →
       ((words.getD 0 0).getLsbD 0 = true → completes (.descriptorFetch ch false) s (sent.setChan ch { s.chan ch with
         flight := (s.chan ch).flight ++ [if s.descFormat ch fresh then
           { fresh with phase := .done, dropped := true, reason := .format } else fresh]
         nextId := (s.chan ch).nextId + 1 })) ∧
       ((words.getD 0 0).getLsbD 0 = false →
         completes (.descriptorFetch ch false) s (sent.putBit (chanReg ch 0x18) 10 true)) ∧
       ∃ u, completes (.descriptorFetch ch true) s u ∧ u.halted ch = true ∧ flag (u.reg (chanReg ch 0x18)) 11 = true ∧
         field (u.reg (chanReg ch 0x18)) 9 2 = 5 ∧ memSame s u ∧
         (ch.val < 512 → u.reg (chanReg ch 0x20) = BitVec.ofNat 64 (2 ^ 53 + a) ∧
           onlyRegs [chanReg ch 0x18, chanReg ch 0x20] s { u with msixPend := s.msixPend, out := s.out }) ∧
         (512 ≤ ch.val → u.stopped ch = true ∧ u.reg (moverReg (moverOf ch) 8) = BitVec.ofNat 64 (2 ^ 53 + a))) ∧
     (i ≠ s.prod ch → s.region a = .outside → ∃ u, completes (.descriptorFetch ch false) s u ∧ u.halted ch = true ∧
       flag (u.reg (chanReg ch 0x18)) 11 = true ∧ field (u.reg (chanReg ch 0x18)) 9 2 = 1 ∧ u.cons ch = s.cons ch)) ∧
  (∀ (s : State) (ch : ChanId) (pre post : List Desc) (d : Desc), (s.chan ch).flight = pre ++ d :: post →
     (∀ e ∈ pre, e.waits = false) → d.waits = true → s.mayMove ch d = true → (d.isRing = true → s.running ch = true) →
     d.op < 3 →
     let c := if d.op = 0 then Instr.descriptorCopy ch else if d.op = 1 then .descriptorAdd ch else .descriptorFill ch
     let with_ := fun (e : Desc) => s.setChan ch { s.chan ch with flight := pre ++ e :: post }
     (s.startCheck ch d = (.ok, false) → d.isRing = true → completes c s (with_ { d with phase := .moving })) ∧
     (d.extents.any regExtent = true → d.isRing = true → flag (s.reg (chanReg ch 8)) 5 = false →
       completes c s (with_ { d with phase := .done, dropped := true, reason := .priv })) ∧
     (d.extents.any regExtent = false → (∃ e ∈ d.extents, s.extentAt (s.chanPart ch) e = none) →
       s.sideFlow (s.chanPart ch) d.src = none → s.sideFlow (s.chanPart ch) d.dst = none →
       completes c s (with_ { d with phase := .done, status := .bounds })) ∧
     (∀ st, s.startCheck ch d = (st, false) → st ≠ .ok → st ≠ .bounds →
       completes c s (with_ { d with phase := .moving, fail := some (st, d.dst, true) })) ∧
     (s.startCheck ch d = (.ok, false) → d.isXfer = true →
       (∀ e ∈ d.dstExt, ∀ a, s.extentAt (s.chanPart ch) e = some a → s.imemOff (s.chanPart ch) a = none) →
       completes c s (with_ { d with phase := .moving })))

/-- DMA_BURST (R256, R259, R268, R283): where a channel's work is the next burst of a linear descriptor, on a mover at the
channel's turn, the burst moves at most 4 KiB, crossing no 4 KiB boundary; a copy within near memory leaves at the
destination the bytes that stood at the source, a fill the pattern by address, and no other byte changes; an element add
goes to the adder of its stack with the source's bytes. That one act takes a whole burst, and at which burst boundary it
falls, is the model's (log 27). RETRY_RESEND (R313) sends a tile add to its adder again. -/
def Obligations.BurstsMove : Prop :=
  (∀ (s : State) (ch : ChanId) (d : Desc), s.chanWork ch = some (d, none) →
    (512 ≤ ch.val → s.moverTurn (moverOf ch) = some ch.val) → d.isRing = true → d.kind = 0 → s.split = false → s.ecc = [] →
    let b := d.nextBurst (d.cur.getD 0)
    let pos := d.pos + b.len
    let started := fun (n : Nat) => (s.chan ch).flight.map fun (e : Desc) => if e.id = d.id then
      { e with pos := pos, cur := (if pos % d.esz = 0 then none else e.cur), openB := e.openB + n } else e
    b.dst + b.len ≤ 0x8000000000 → (∀ i, i < b.len → s.reach (chanDie ch) (b.dst + i) = .ok) →
    s.unheld b.dst b.len →
    let moved := fun (u : State) => (u.chan ch).flight = started 0 ∧ memBut b.dst b.len s u ∧
      regsBut [moverReg (moverOf ch) 0x18] s u ∧ (∀ j, j ≠ ch.val → u.chan j = s.chan j)
    (d.op ≠ 1 → b.len ≤ 4096 ∧ b.dst % 4096 + b.len ≤ 4096) ∧
    (d.op = 0 → b.src + b.len ≤ 0x8000000000 → (∀ i, i < b.len → s.reach (chanDie ch) (b.src + i) = .ok) →
      ∃ u, completes (.dmaBurst ch) s u ∧ moved u ∧ u.bytes b.dst b.len = s.bytes b.src b.len) ∧
    (d.op = 2 → ∃ u, completes (.dmaBurst ch) s u ∧ moved u ∧
      ∀ i, i < b.len → u.byte (b.dst + i) = BitVec.ofNat 8 (d.w 1 / 256 ^ ((b.dst + i) % 8))) ∧
    (d.op = 1 → d.afmt ≠ 0 → b.src + b.len ≤ 0x8000000000 → (∀ i, i < b.len → s.reach (chanDie ch) (b.src + i) = .ok) →
      ∃ u, completes (.dmaBurst ch) s u ∧ memSame s u ∧ (u.chan ch).flight = started 1 ∧
        (u.stack (s.stackOf b.dst)).elems = (s.stack (s.stackOf b.dst)).elems ++
          [⟨d.afmt, b.dst, s.bytes b.src b.len, ⟨ch, d.id, b.dst⟩⟩])) ∧
  (∀ (s : State) (ch : ChanId) (a : TileAdd) (rest : List TileAdd) (t : Nat), (s.chan ch).retry = a :: rest →
    s.region a.burst.dst = .scratch t → ∃ u, completes (.retryResend ch) s u ∧
      (u.tile t).adds = (s.tile t).adds ++ [a] ∧ (u.chan ch).retry = rest ∧
      u = { s with tiles := u.tiles, chans := u.chans })

/-- DESCRIPTOR_COMPLETE (R250, R252, R260): a ring descriptor that can complete, with its entry in near memory, has
word 7 written and OWN cleared in word 0, leaves its channel, and CONS advances; with SIG_EN and status OK its event
or counter takes one more. Only the sixteen bytes of those two words change. -/
def Obligations.DescriptorsComplete : Prop :=
  ∀ (s : State) (ch : ChanId) (d : Desc) (k : Nat) (i : BitVec 16), s.dieOn (chanDie ch) = true →
    ((s.chan ch).flight.zipIdx.find? fun (p : Desc × Nat) => s.completable ch p) = some (d, k) → d.origin = .ring i →
    s.split = false → s.ecc = [] → d.dropped = false → d.byReg = false → d.again = [] → (s.chan ch).posts = [] →
    let a := (s.reg (chanReg ch 0)).toNat + 64 * (i.toNat % 2 ^ field (s.reg (chanReg ch 8)) 4 0)
    a + 64 ≤ 0x8000000000 → (∀ j, j < 64 → s.reach (chanDie ch) (a + j) = .ok) →
    s.unheld a 64 →
    s.dieLost (ctrDie d.sigIdx) = false → d.sigIdx < 65536 →
    let signals := d.sigEn = true ∧ d.status = .ok
    let sig := if ch.val < 512 then evReg (ch / 4) (d.sigIdx % 16) else ctrReg d.sigIdx
    ∃ u, completes (.descriptorComplete ch false) s u ∧
      u.num (a + 56) 8 = (d.status.code + 2 ^ 24 * d.residue) % 2 ^ 64 ∧ u.num a 8 = d.w 0 / 2 * 2 ∧
      (∀ b, ¬ (a ≤ b ∧ b < a + 8) → ¬ (a + 56 ≤ b ∧ b < a + 64) → u.byte b = s.byte b) ∧
      (u.chan ch).flight = (s.chan ch).flight.eraseIdx k ∧ u.cons ch = s.cons ch + 1 ∧
      (u.reg (chanReg ch 0x28)).toNat = min ((s.reg (chanReg ch 0x28)).toNat + 1) 0xFFFFFFFFFFFFFFFF ∧
      (signals → ch.val < 512 → u.ev (ch / 4) (d.sigIdx % 16) = s.ev (ch / 4) (d.sigIdx % 16) + 1) ∧
      (signals → 512 ≤ ch.val → u.ctr d.sigIdx = s.ctr d.sigIdx + 1) ∧
      (¬ signals → u.reg sig = s.reg sig) ∧ regsBut [chanReg ch 0x28, chanReg ch 0x10, sig] s u ∧
      ∀ j, j ≠ ch.val → u.chan j = s.chan j

/-! ### Near and far memory, adders (10_near_and_far_memory.md) -/

/-- R27 and R28: in package interleave, the default, an address selects its stack by the exclusive or of three granule
fields and its offset by the bits above and below them; in die-local interleave each half of the addresses lies on its
compute die; both maps are one-to-one on the 512 GiB of near memory. -/
def Obligations.AddressMapsAreOneToOne : Prop :=
  State.reset.dieLocal = false ∧
  (∀ (s : State) (a : Nat), a < 2 ^ 39 → let g := a / 4096
    (s.dieLocal = false → s.stackOf a = (g % 8 ^^^ g / 256 % 8) ^^^ g / 65536 % 8 ∧
      s.stackOffset a = a / 2 ^ 15 * 4096 + a % 4096) ∧
    (s.dieLocal = true → s.stackOf a = 4 * (a / 2 ^ 38) + ((g % 4 ^^^ g / 256 % 4) ^^^ g / 65536 % 4) ∧
      s.stackOffset a = a % 2 ^ 38 / 2 ^ 14 * 4096 + a % 4096)) ∧
  (∀ (s : State) (a b : Nat), a < 2 ^ 39 → b < 2 ^ 39 → s.stackOf a = s.stackOf b →
    s.stackOffset a = s.stackOffset b → a = b)

/-- HBM_SECTOR_ACCESS, PATROL_SCRUB and STACK_TEMP_SAMPLE (R272, R277 to R281, R294): a clean read changes nothing, a
corrected one is written back and counted, an uncorrectable one is counted, recorded with its address and left so; a
write lands, and no other byte changes; a scrub does what a demand read does, unless it is turned off. -/
def Obligations.NearMemoryControllers : Prop :=
  ∀ (s : State) (a : NearAddr), s.stackOn (s.stackOf a) = true → s.ecc = [] → s.split = false →
    let st := s.stackOf a
    let corrected := fun (c : Instr) => ∃ u, completes c s u ∧ u.ecc = [] ∧ memSame s u ∧
      (u.reg (stackReg st 4)).toNat = min ((s.reg (stackReg st 4)).toNat + 1) 0xFFFFFFFF ∧
      regsBut [stackReg st 0, stackReg st 4] s u
    let recorded := fun (c : Instr) (source : Nat) => ∃ u, completes c s u ∧ memSame s u ∧
      u.eccAt a = .uncorrectable ∧ flag (u.reg (stackReg st 0)) 17 = true ∧
      (u.reg (stackReg st 8)).toNat = min ((s.reg (stackReg st 8)).toNat + 1) 0xFFFFFFFF ∧
      (u.reg (stackReg st 0x10)).toNat = a.val / 32 * 32 + source * 2 ^ 52 ∧
      regsBut [stackReg st 0, stackReg st 8, stackReg st 0x10] s u
    completes (.hbmSectorAccess a .readLine .clean) s s ∧ completes (.hbmSectorAccess a .readSector .clean) s s ∧
    corrected (.hbmSectorAccess a .readLine .corrected) ∧ corrected (.hbmSectorAccess a .readSector .corrected) ∧
    recorded (.hbmSectorAccess a .readLine .uncorrectable) 0 ∧
    recorded (.hbmSectorAccess a .readSector .uncorrectable) 0 ∧
    (∀ bs, bs ≠ [] → a.val % 64 + bs.length ≤ 64 → s.unheld a bs.length → ∃ u, completes (.hbmSectorAccess a (.write bs) .clean) s u ∧
      u.bytes a bs.length = bs ∧ memBut a bs.length s u ∧ regsBut [] s u) ∧
    (field (s.reg (stackReg st 0x18)) 7 0 ≠ 0 → completes (.patrolScrub a .clean) s s ∧
      corrected (.patrolScrub a .corrected) ∧ recorded (.patrolScrub a .uncorrectable) 1) ∧
    (field (s.reg (stackReg st 0x18)) 7 0 = 0 → ∀ e, completes (.patrolScrub a e) s s) ∧
    ∀ (k : Fin 8) (c : Nat), s.stackOn k = true → ∃ u, completes (.stackTempSample k c) s u ∧
      field (u.reg (stackReg k 0)) 16 9 = min c 255 ∧ onlyRegs [stackReg k 0] s u

/-- REGULATOR_TICK, CONTROLLER_GRANT, ARBITER_GRANT of a controller, MEM_REG_CFG_WRITE and MEM_PART_MAP_WRITE (R287, R288,
R295, R296, R306, R308): a tick adds to each partition's tokens its rate, scaled by the memory duty, up to its bucket (a
fraction of a token falls to a neighbour that the spec leaves open, log 17), a partition with a request that waits
ineligible counts the MCLK, and the controllers may grant anew; while a controller has grants left and an eligible request
waits, one is granted, counted and paid for; with none eligible, one of a partition with SHARE is granted, counted and not
paid for; a late grant is an error (R317); RATE and BURST are clamped, and tokens are cut to the new bucket. -/
def Obligations.BandwidthRegulators : Prop :=
  (∀ (s : State) (cd : Fin 2), s.dieLost cd = false → ∃ u, completes (.regulatorTick cd) s u ∧
    u = { s with tokens := u.tokens, free := u.free, regs := u.regs, mgrants := u.mgrants } ∧
    (∀ st, u.mgrant st = if st / 4 = cd.val then 0 else s.mgrant st) ∧
    regsBut ((List.range 16).map fun p => memReg cd p 0x10) s u ∧ ∀ p, p < 16 →
      let n := field (s.reg (memReg cd p 0)) 13 0 * (16 - s.level 1 cd) * 40
      (∃ e : Nat, e ≤ 1 ∧ (n % 3 = 0 → e = 0) ∧
        u.token cd p = min (s.token cd p + (n / 3 + e : Nat)) (s.regBucket cd p)) ∧
      let waits := ∃ i c h, i < 4 ∧ (c = FabClass.req ∨ c = .sub) ∧ h ∈ s.heads (dieOf cd) .hbmController i c ∧
        h.part = some p
      ((waits ∧ s.regEn cd p = true ∧ u.token cd p ≤ 0) →
        (u.reg (memReg cd p 0x10)).toNat = min ((s.reg (memReg cd p 0x10)).toNat + 1) 0xFFFFFFFFFFFFFFFF) ∧
      ((¬ waits ∨ s.regEn cd p = false ∨ 0 < u.token cd p) → u.reg (memReg cd p 0x10) = s.reg (memReg cd p 0x10))) ∧
  (∀ (s : State) (st : Fin 8), s.stackOn st = true →
    let cd := st.val / 4
    let heads := fun c => s.heads (dieOf cd) .hbmController (st.val % 4) c
    let some_ := fun (may : FabHead → Bool) => ∃ c h, (c = FabClass.req ∨ c = .sub) ∧ h ∈ heads c ∧ may h = true
    let granted := fun (may : FabHead → Bool) (pays : Bool) => ∃ u c g p, completes (.controllerGrant st false) s u ∧
      completes (.arbiterGrant (dieOf cd) .hbmController (st.val % 4) 0 false false) s u ∧
      (c = FabClass.req ∨ c = .sub) ∧ g ∈ heads c ∧ may g = true ∧ s.fab[g.place]? = some p ∧
      u.mgrant st = s.mgrant st + 1 ∧ memSame s u ∧
      (1 < p.lines → u.fab = s.fab.set g.place { p with lines := p.lines - 1 }) ∧
      (∀ q, p.part = some q → q < 16 →
        let b : Nat := if p.narrow then 32 else 64
        (u.reg (memReg cd q 8)).toNat = min ((s.reg (memReg cd q 8)).toNat + b) 0xFFFFFFFFFFFFFFFF ∧
        u.token cd q = (if s.regEn cd q = true ∧ pays = true then s.token cd q - 256 * (b : Int) else s.token cd q) ∧
        ∀ r, r ≠ q → r < 16 → u.token cd r = s.token cd r)
    (2 * (16 - s.level 1 cd) ≤ s.mgrant st → completes (.controllerGrant st false) s s) ∧
    (∀ u, completes (.controllerGrant st false) s u → completes (.controllerGrant st true) s (u.fabError cd 0)) ∧
    (s.mgrant st < 2 * (16 - s.level 1 cd) → some_ (s.headEligible cd) → granted (s.headEligible cd) true) ∧
    (s.mgrant st < 2 * (16 - s.level 1 cd) → ¬ some_ (s.headEligible cd) → some_ (s.headShares cd) →
      granted (s.headShares cd) false)) ∧
  (∀ (s : State) (w : Path) (v : BitVec 32),
    (∀ (n cd : Fin 2) (p : Fin 16), s.kernelOff w (memReg n p 0) = some (memReg cd p 0) →
      ∃ u, completes (.memRegCfgWrite w n p v) s u ∧
      u.regRate cd p = (if v.toNat % 2 ^ 14 = 0 ∧ v.getLsbD 24 = false then 1 else min (v.toNat % 2 ^ 14) 9830) ∧
      u.regBucket cd p = 262144 * (max 1 (v.toNat / 2 ^ 14 % 1024) : Nat) ∧ u.regShare cd p = v.getLsbD 24 ∧
      u.regEn cd p = v.getLsbD 25 ∧ u.token cd p = min (s.token cd p) (u.regBucket cd p) ∧
      regsBut [memReg cd p 0] s u ∧ memSame s u) ∧
    ∀ j : Fin 21, s.kernelOff w (0x54000 + 4 * j.val) = some (0x54000 + 4 * j.val) →
      ∃ u, completes (.memPartMapWrite w j v) s u ∧ onlyRegs [0x54000 + 4 * j.val] s u ∧
      (u.reg (0x54000 + 4 * j.val)).toNat = if j.val = 20 then v.toNat % 2 ^ 24 else v.toNat)

/-- ELEMENT_ADD and MEMORY_TILE_ADD (R105, R283 to R285): the adder of a stack adds, element by element, the part of
its oldest burst that lies in one sector, and answers the burst's descriptor with its last sector; an uncorrectable sector
is left as it is and answered with MEM_UE. A tile add that no running one stands before adds its 4,096 elements and holds
the tile; the next act writes the header, ends the hold and answers. That it takes two acts is the model's (log 153). -/
def Obligations.MemoryAdders : Prop :=
  (∀ (s : State) (st : Fin 8) (e : ElemAdd) (rest : List ElemAdd), s.stackOn st = true →
    (s.stack st).elems = e :: rest → 1 ≤ e.afmt → e.afmt ≤ 4 →
    let n := min e.bytes.length (32 - e.addr % 32)
    let k := afmtSize e.afmt
    let heard := fun (u : State) (r : Status) => (u.chan e.own.ch).flight = (s.chan e.own.ch).flight.map fun (d : Desc) =>
      if d.id = e.own.desc then d.answered r e.own.addr true else d
    s.unheld e.addr n →
    (s.ecc = [] → ∃ u, completes (.elementAdd st) s u ∧ memBut e.addr n s u ∧
      (∀ i, i < n / k → u.num (e.addr + k * i) k =
        addCodes e.afmt (s.num (e.addr + k * i) k) (bytesN e.bytes (k * i + k - 1) (k * i)) % 256 ^ k) ∧
      (n < e.bytes.length → (u.stack st).elems = { e with addr := e.addr + n, bytes := e.bytes.drop n } :: rest ∧
        u.chans = s.chans) ∧
      (n = e.bytes.length → (u.stack st).elems = rest ∧ heard u .ok) ∧
      regsBut [stackReg (s.stackOf e.addr) 0x20] s u) ∧
    (s.ecc = [(e.addr / 32 * 32, Ecc.uncorrectable)] → e.addr < 0x8000000000 →
      ∃ u, completes (.elementAdd st) s u ∧ memSame s u ∧ (u.stack st).elems = rest ∧ heard u .memUe)) ∧
  (∀ (s : State) (st : Fin 8) (a : TileAdd) (rest : List TileAdd), s.stackOn st = true → (s.stack st).run = none →
    (s.stack st).tiles = a :: rest → s.ecc = [] → (∀ i, i < 66624 → s.reach (st.val / 4) (a.burst.dst + i) = .ok) →
    s.unheld a.burst.dst 66624 →
    let src := fun i => tget memDefault a.src i
    let dst := fun i => s.byte (a.burst.dst + i)
    let anchor := if (tileHdr dst).anchored then (tileHdr dst).anchor
      else if (tileHdr src).anchored then (tileHdr src).anchor else (tileHdr dst).anchor
    ∃ u, completes (.memoryTileAdd st) s u ∧ (u.stack st).tiles = rest ∧ memBut a.burst.dst 0x10400 s u ∧
      (∀ j, j < 4096 → tileElem (fun i => u.byte (a.burst.dst + i)) j =
        (addElem (tileElem dst j) (tileElem src j) ((tileHdr src).anchor - anchor)).1) ∧
      (u.stack st).run = some ⟨a.burst.dst, (tileAdd dst src).header, a.own, (tileAdd dst src).status⟩ ∧
      u.chans = s.chans ∧ regsBut [] s u) ∧
  (∀ (s : State) (st : Fin 8) (r : AdderRun), s.stackOn st = true → (s.stack st).run = some r →
    ∃ u, completes (.memoryTileAdd st) s u ∧ (u.stack st).run = none ∧
      u.bytes (r.base + 0x10400) r.header.length = r.header ∧ memBut (r.base + 0x10400) r.header.length s u ∧
      (u.chan r.own.ch).flight = (s.chan r.own.ch).flight.map (fun (d : Desc) =>
        if d.id = r.own.desc then d.answered r.status r.own.addr true else d) ∧
      (u.reg (stackReg st 0x20)).toNat = min ((s.reg (stackReg st 0x20)).toNat + 1) 0xFFFFFFFFFFFFFFFF ∧
      regsBut [stackReg st 0x20] s u)

/-- CXL_REQUEST, CXL_COMPLETION, CXL_TIMEOUT_EXPIRY, DL_DOWN and CXL_LINK_RECOVERY (R292, R293): a request to a port
that is up joins the port's requests, transmitted unless an earlier one to its line has not completed; the completion
of a write lands its bytes and no other, that of a read brings the line, or its poison, counted; a timeout ends the
request with or without a write's bytes, with BUS to the descriptor that waits for it; DL_DOWN ends all requests and leaves the port down; a recovery only takes
time. -/
def Obligations.FarTier : Prop :=
  ∀ (s : State) (p : Fin 4) (l : FarLine),
    let a := 0x100000000000 + p.val * 0x40000000000 + 64 * l.val
    (∀ wr, s.cxlUp p = true → 64 * l.val < s.farCap p → ∃ u, completes (.cxlRequest p l wr) s u ∧
      u.cxlReqs p = s.cxlReqs p ++ [⟨l, wr, decide (∀ r ∈ s.cxlReqs p, r.line ≠ l.val), none⟩] ∧
      u = { s with cxl := u.cxl } ∧ ∀ q, q ≠ p.val → u.cxlReqs q = s.cxlReqs q) ∧
    (∀ wr, s.cxlUp p = false → completes (.cxlRequest p l wr) s s) ∧
    (∀ r bytes, (s.cxlReqs p).find? (fun (r : CxlReq) => r.line == l.val) = some r → bytes.length = 64 →
      (∀ bs, r.wr = some bs → (bs.map (·.1)).Nodup → ∃ u, completes (.cxlCompletion p l false bytes) s u ∧
        (∀ b ∈ bs, u.byte (a + b.1.val) = b.2) ∧ (∀ k, (∀ b ∈ bs, k ≠ a + b.1.val) → u.byte k = s.byte k) ∧
        u.cxlReqs p = cxlNext l (s.cxlReqs p) ∧ regsBut [cxlReg p 0x30] s u) ∧
      (r.wr = none → ∃ u, completes (.cxlCompletion p l false bytes) s u ∧ u.bytes a 64 = bytes ∧ memBut a 64 s u ∧
        u.cxlReqs p = cxlNext l (s.cxlReqs p) ∧ u.eccAt a = .clean ∧ regsBut [cxlReg p 0x28] s u ∧
        (r.own = none → u.chans = s.chans) ∧ ∀ b, r.own = some b → (u.chan b.ch).flight = (s.chan b.ch).flight.map
          (fun (d : Desc) => if d.id = b.desc then d.farHeard (a / 64) .ok bytes else d)) ∧
      (r.wr = none → ∃ u, completes (.cxlCompletion p l true bytes) s u ∧ u.eccAt a = .uncorrectable ∧ memSame s u ∧
        u.cxlReqs p = cxlNext l (s.cxlReqs p) ∧
        (u.reg (cxlReg p 0x14)).toNat = min ((s.reg (cxlReg p 0x14)).toNat + 1) 0xFFFFFFFF ∧
        regsBut [cxlReg p 0x28, cxlReg p 0x14, cxlReg p 0x20] s u) ∧
      (∃ u, completes (.cxlTimeoutExpiry p l) s u ∧ u.cxlReqs p = cxlNext l (s.cxlReqs p) ∧
        (u.reg (cxlReg p 0x18)).toNat = min ((s.reg (cxlReg p 0x18)).toNat + 1) 0xFFFFFFFF ∧
        (r.own = none → regsBut [cxlReg p 0x18] s u) ∧
        (∀ b pre d post, r.own = some b → r.wr.isSome = true → b.ch < 512 → (s.chan b.ch).flight = pre ++ d :: post →
          d.id = b.desc → d.live = true → (∀ e ∈ pre, e.id ≠ b.desc) →
          (u.chan b.ch).flight = pre ++ d.ended .bus :: post) ∧
        (u.mem = s.mem ∨ ∃ bs, r.wr = some bs ∧ u.mem = (s.cxlStore a bs).mem))) ∧
    (s.cxlUp p = true → ∃ u, completes (.dlDown p) s u ∧ u.cxlReqs p = [] ∧ flag (u.reg (cxlReg p 0)) 0 = false ∧
      flag (u.reg (cxlReg p 0)) 12 = true ∧ memSame s u ∧
      ((∀ r ∈ s.cxlReqs p, r.own = none) → regsBut [cxlReg p 0] s u)) ∧
    completes (.cxlLinkRecovery p) s s

/-! ### The fabric (11_fabric_arbitration.md) -/

/-- ARBITER_GRANT, CREDIT_RETURN and FAB_WAIT_MAX_READ (R300, R301, R303 to R306, R317, R318): of the classes that have a
packet and a credit at an output, the next in round robin is served; a weighted arbiter with no head past its age limit
grants the one with the most credit after the weights are added, which pays the sum of the weights; the earliest head past
the limit goes before all others, and nobody's credit changes; an unweighted arbiter grants the next input in the round; the
packet goes to its next output with its new ACTIVE. With no class ready nothing is granted, and heads without a credit count
the stall. A late grant is an error, and so is a credit count found out of its range. Returned credits beyond those owed
are an error. A read of the longest waits clears
them. -/
def Obligations.FabricArbiters : Prop :=
  (∀ (s : State) (die : Die) (kind : ArbKind) (unit : Nat) (role : Fin 3),
    Instr.wf (.arbiterGrant die kind unit role false false) = true →
    s.dieLost (dieNum die) = false → kind ≠ .hbmController →
    let idx := kind.output unit role
    let turn := fun (late creditErr : Bool) => Instr.arbiterGrant die kind unit role late creditErr
    let heads := fun c => s.heads die kind idx c
    let ck := fun c => creditKey die (arbLink kind idx) c
    let ready := fun c => c ∈ kind.classes ∧ heads c ≠ [] ∧ s.hasCredit (ck c) = true
    let arb := fun (u : State) c => tget (fun _ => Arb.reset) u.arbs (arbKey die kind idx c)
    let last := s.lastClass die kind idx
    (∀ c, ready c → (∀ m, ready m → (clsNum c < last ↔ clsNum m < last) → clsNum c ≤ clsNum m) →
      (clsNum c < last → ∀ m, ready m → clsNum m < last) →
      let a := arb s c
      let ws := heads c
      let rich := fun (h : FabHead) => a.cr h.input + (h.active : Int)
      ∃ u g, completes (turn false false) s u ∧ g ∈ ws ∧ u.lastClass die kind idx = clsNum c + 1 ∧
        (arb u c).last = g.input ∧ u.linkCredit (ck c) = s.linkCredit (ck c) - 1 ∧ memSame s u ∧
        (∀ h ∈ ws, (arb u c).wait h.input = if h.input = g.input then 0 else a.wait h.input + 1) ∧
        (weighted kind c = true → (∀ h ∈ ws, a.wait h.input < ageLimit kind) →
          (∀ h ∈ ws, rich h ≤ rich g) ∧ (∀ h ∈ ws, rich h = rich g → g.input ≤ h.input) ∧
          ∀ h ∈ ws, (arb u c).cr h.input = if h.input = g.input then
            rich g - ((ws.map fun h => h.active).sum : Nat) else rich h) ∧
        (∀ h, weighted kind c = true → ws.find? (fun h => decide (ageLimit kind ≤ a.wait h.input)) = some h →
          g = h ∧ (∀ h ∈ ws, (arb u c).cr h.input = a.cr h.input) ∧ flag (u.reg (fabReg (dieNum die) 0)) 2 = true) ∧
        (weighted kind c = false →
          ((∃ h ∈ ws, a.last < h.input) → a.last < g.input ∧ ∀ h ∈ ws, a.last < h.input → g.input ≤ h.input) ∧
          ((∀ h ∈ ws, h.input ≤ a.last) → ∀ h ∈ ws, g.input ≤ h.input)) ∧
        ∀ p h₁ h₂ r, s.fab[g.place]? = some p → p.path = h₁ :: h₂ :: r → (∀ i, h₂.seam = some i → s.seamLost i = false) →
          u.fab = s.fab.eraseIdx g.place ++ [{ p with path := h₂ :: r, active :=
            if kind = .tileEgress then 1 else if weighted kind c then min 255 ((ws.map fun h => h.active).sum)
            else g.active }]) ∧
    ((∀ c, ¬ ready c) → ∃ u, completes (turn false false) s u ∧
      u = { s with regs := u.regs, arbs := u.arbs } ∧ regsBut [fabReg (dieNum die) 0x18] s u ∧
      (∀ c ∈ kind.classes, ∀ h ∈ heads c, (arb u c).cr h.input = (arb s c).cr h.input ∧
        (arb u c).wait h.input = (arb s c).wait h.input) ∧
      ((∃ c ∈ kind.classes, heads c ≠ []) → (u.reg (fabReg (dieNum die) 0x18)).toNat =
        min ((s.reg (fabReg (dieNum die) 0x18)).toNat + 1) 0xFFFFFFFFFFFFFFFF)) ∧
    ∀ u, completes (turn false false) s u → completes (turn true false) s (u.fabError (dieNum die) 0) ∧
      completes (turn false true) s (u.fabError (dieNum die) 1) ∧
      completes (turn true true) s ((u.fabError (dieNum die) 0).fabError (dieNum die) 1)) ∧
  (∀ (s : State) (die : Die) (link : Nat) (cls : FabClass) (n : Nat), s.dieLost (dieNum die) = false →
    Instr.wf (.creditReturn die link cls n) = true →
    let k := creditKey die link cls
    ∃ u, completes (.creditReturn die link cls n) s u ∧ u.linkCredit k = s.linkCredit k + n ∧ memSame s u ∧
      (s.linkCredit k + n ≤ 0 → -(s.linkCredit k + n) ≤ Config.linkSlots k + 1 → u = { s with credits := u.credits }) ∧
      (0 < s.linkCredit k + n → flag (u.reg (fabReg (dieNum die) 0)) 1 = true ∧
        (u.reg (fabReg (dieNum die) 0x24)).toNat =
          min ((s.reg (fabReg (dieNum die) 0x24)).toNat + 1) 0xFFFFFFFF ∧
        regsBut [fabReg (dieNum die) 0, fabReg (dieNum die) 0x24] s u)) ∧
  (∀ (s : State) (p : Fin 2) (die : Die), s.portServes p = true → s.mode ≠ .off → s.mode ≠ .tripped →
    s.dieLost (dieNum die) = false → ∃ u, completes (.fabWaitMaxRead (.bar0 p 0) die) s u ∧
      u.reg (fabReg (dieNum die) 8) = 0 ∧ u.out = s.out ++ [.pcieData p (natLe 8 (s.reg (fabReg (dieNum die) 8)).toNat)] ∧
      regsBut [fabReg (dieNum die) 8] s u ∧ memSame s u)

/-- R90: tags combine by its table, which is commutative and associative. -/
def Obligations.TagsCombine : Prop :=
  (∀ a b, a < 4 → b < 4 → tagAdd a b =
    (([[0, 1, 2, 3], [1, 1, 3, 3], [2, 3, 2, 3], [3, 3, 3, 3]] : List (List Nat)).getD a []).getD b 0) ∧
  (∀ a b, a < 4 → b < 4 → tagAdd a b = tagAdd b a) ∧
  ∀ a b c, a < 4 → b < 4 → c < 4 → tagAdd (tagAdd a b) c = tagAdd a (tagAdd b c)

/-- R242: the sub-bank mapping has no conflict in a run of 3,072 consecutive bytes that starts on a word boundary, nor
in the 64 words of one column of an accumulator tile; other strides may place two words in one sub-bank, of which a
cycle serves one. Its example's words lie where it says. -/
def Obligations.SubBanksServeTwoPatterns : Prop :=
  (∀ w i j, i < 192 → j < 192 → subBank (w + i) = subBank (w + j) → i = j) ∧
  (∀ w i j, i < 64 → j < 64 → subBank (w + 64 * i) = subBank (w + 64 * j) → i = j) ∧
  (∃ w d, 0 < d ∧ subBank w = subBank (w + d)) ∧
  (∀ (s : State) (t : TileId) (a b : SpReq), a.port ≠ b.port → a.word ≠ b.word → subBank a.word = subBank b.word →
    (s.tile t).spWait = [] → ∃ u, completes (.scratchpadGrant t [a, b] none) s u ∧ (u.tile t).spWait.length = 1) ∧
  subBank 0x30005 = 0x05 ∧ subBank 0x30045 = 0x45 ∧ subBank 0x30105 = 0x01 ∧ subBank 0x30FC5 = 0xF9

/-! ### Optical ports, frames and flows (12_optical_network.md) -/

/-- PORT_RETRAIN, LINK_STATUS_SEND, LINK_LOSS, LINK_HOLD_EXPIRY and LINK_RETURN (R319 to R321, R338, R339): training
brings up every link of a port whose clock runs and whose lanes pass and meet a peer, using the connector's spare laser for one failing
laser; a lost link goes down and is held; when its hold expires its flows enter ERROR with LINK_DOWN; a link that
returns within its hold sends what its flows have stored again, marked as retransmitted, or keeps it due while there is no
room. FLOW_OPEN, FLOW_DRAIN,
FLOW_FREE, FLOW_FIELD_WRITE and FLOW_DRAINED (R327, R328), on the kernel path, of the context that the path's partition calls by the
number: a FREE context opens where its fields
name a link of its die, taking its writable bits from the value; an OPEN one drains; one in ERROR becomes FREE; any
other change of STATE stores nothing and is counted. Fields are taken while a context is FREE, and of an OPEN one only
word 4. A DRAINING context with nothing in flight becomes FREE. -/
def Obligations.LinksAndFlows : Prop :=
  ((∀ (s : State) (p : Fin 32), s.mode = .running → s.dieLost (2 + p.val / 16) = false →
     16 + p.val / 16 ∉ s.domainLost →
     (∃ u, completes (.portRetrain p ⟨0, 0, 15⟩) s u ∧ regsBut [netPortReg p 4] s u ∧ memSame s u ∧
       ∀ j, j < s.subPorts p → flag (u.reg (netPortReg p 4)) j = true ∧
         (flag (s.reg (netPortReg p 4)) j = false → (u.link p j).sent = [] ∧ (u.link p j).freed = []) ∧
         (flag (s.reg (netPortReg p 4)) j = true → u.link p j = s.link p j)) ∧
     completes (.portRetrain p ⟨0, 0, 0⟩) s s ∧
     (s.subPorts p = 1 → flag (s.reg (netPortReg p 4)) 0 = false → flag (s.reg (netPortReg p 4)) 5 = false →
       ∃ u, completes (.portRetrain p ⟨1, 0, 15⟩) s u ∧ flag (u.reg (netPortReg p 4)) 0 = true ∧
         flag (u.reg (netPortReg p 4)) 4 = false ∧
         ∀ q, q / 4 = p.val / 4 → flag (u.reg (netPortReg q 4)) 5 = true)) ∧
   (∀ (s : State) (p : Fin 32) (j : Fin 4), s.linkUp p j = true →
     (s.ethernet p = false → completes (.linkStatusSend p j) s ((s.count64 (netPortReg p 0x10) 1).emit
       (.frame p j (statusFrame ((List.range 6).map (linkCount (s.link p j).sent))
         ((List.range 6).map (linkCount (s.link p j).out)))))) ∧
     (∀ c, (c = .pcsLoss ∨ (c = .hcrcSilence ∧ s.ethernet p = false) ∨ (c = .linkFault ∧ s.ethernet p = true)) →
       ∃ u, completes (.linkLoss p j c) s u ∧ u.linkUp p j = false ∧ (u.link p j).held = true ∧
         flag (u.reg (netPortReg p 4)) 6 = true ∧ regsBut [netPortReg p 4] s u ∧ memSame s u) ∧
     ((s.link p j).held = true → ∃ u, completes (.linkReturn p j) s u ∧ (u.link p j).held = false ∧ memSame s u ∧
       ∀ i x, s.linkFlows p j = [i] → (s.flow i).store = [x] → x.rnr = false → s.flowUp i = true →
         (s.flowRoom i x.pkt = true → s.level 2 (flowDie i - 2) = 0 →
           u.out = s.out ++ [s.flowFrame i { x.pkt with retx := true }]) ∧
         (s.flowRoom i x.pkt = false → u.out = s.out ∧ (u.flow i).store = [{ x with due := true }]))) ∧
   (∀ (s : State) (p : Fin 32) (j : Fin 4), s.linkUp p j = false → (s.link p j).held = true →
     ∃ u, completes (.linkHoldExpiry p j) s u ∧ (u.link p j).held = false ∧
       ∀ i, i < 262144 → s.flowPort i = p.val → s.flowSub i = j.val → (s.flowState i = 1 ∨ s.flowState i = 2) →
         u.flowState i = 3 ∧ field (u.reg (flowReg i 6)) 39 32 = 15 ∧ (u.flow i).store = [])) ∧
  ((∀ (s : State) (w : Path) (n f : FlowId) (v : BitVec 64),
     (∀ k, k < 8 → s.kernelOff w (flowReg n k) = some (flowReg f k)) →
     let o := flowReg f 0
     let ignored := s.count (netDieReg (f.val / 131072) 4) 1
     (s.flowState f = 0 → s.flowLinkOk f (maskIn (s.reg o) (putField v 2 0 1) 0x7FFFFFFFFF) = true →
       ∃ u, completes (.flowOpen w n v) s u ∧ u.flowState f = 1 ∧ field (u.reg o) 38 3 = field v 38 3 ∧
         field (u.reg o) 63 39 = field (s.reg o) 63 39 ∧ (u.flow f).queue = [] ∧ (u.flow f).store = [] ∧
         u = { s with regs := u.regs, flows := u.flows } ∧ regsBut [o] s u) ∧
     (s.flowState f = 0 → s.flowLinkOk f (maskIn (s.reg o) (putField v 2 0 1) 0x7FFFFFFFFF) = false →
       completes (.flowOpen w n v) s ignored) ∧
     (s.flowState f = 1 → completes (.flowDrain w n v) s (s.putReg o 2 0 2)) ∧
     (s.flowState f = 3 → completes (.flowFree w n v) s (s.putReg o 2 0 0)) ∧
     (s.flowState f = 1 ∨ s.flowState f = 2 → completes (.flowFree w n v) s ignored) ∧
     (s.flowState f = 2 ∨ s.flowState f = 3 → completes (.flowOpen w n v) s ignored) ∧
     (s.flowState f = 0 ∨ s.flowState f = 3 → completes (.flowDrain w n v) s ignored) ∧
     (∀ k : Fin 8, 1 ≤ k.val → k.val ≤ 6 → s.flowState f = 0 → completes (.flowFieldWrite w n k v) s
       (s.setReg (flowReg f k) (maskIn (s.reg (flowReg f k)) v (flowRw k (flag (s.reg o) 3) % 2 ^ 64)))) ∧
     (∀ k : Fin 8, k.val ≠ 4 → s.flowState f = 1 → completes (.flowFieldWrite w n k v) s ignored)) ∧
   (∀ (s : State) (f : FlowId), s.flowState f = 2 →
     ((s.flow f).store = [] → (s.flow f).queue = [] → ∃ u, completes (.flowDrained f) s u ∧ u.flowState f = 0 ∧
       u.flow f = Flow.reset ∧ u = { s with regs := u.regs, flows := u.flows } ∧ regsBut [flowReg f 0] s u) ∧
     ((s.flow f).store ≠ [] ∨ (s.flow f).queue ≠ [] → completes (.flowDrained f) s s)))

/-- NATIVE_FRAME_RECEIVE, ETHERNET_FRAME_RECEIVE and SOURCE_ROUTE_FORWARD (R321, R322, R324 to R326): a frame with a
bad header or a bad CRC is discarded and counted; a good packet on its way through waits for its next hop, one at its
final hop waits there, and one that R325 rejects is discarded and counted; a link-status frame brings the peer's freed
counts; a pause of priority flow control is kept by priority (its unit is the model's, log 158). Of the packets on their way
through that stand at the front of their buffers, the oldest that its link has room for leaves on the hop its route names,
with RPTR one more and nothing else of it changed, and one without a way is dropped and counted. -/
def Obligations.FramesArrive : Prop :=
  (∀ (s : State) (p : Fin 32) (j : Fin 4) (bytes : List Byte), s.linkUp p j = true → s.ethernet p = false →
    nativeLen bytes.length = true →
    let f := nativeOf bytes
    let c := Instr.nativeFrameReceive p j bytes
    (f.hcrcGood = false → ∃ u, completes c s u ∧ (u.link p j).search = true ∧
      (u.reg (netPortReg p 0x20)).toNat = min ((s.reg (netPortReg p 0x20)).toNat + 1) 0xFFFFFFFF ∧
      regsBut [netPortReg p 0x20] s u ∧ u.arrived = s.arrived ∧ u.forward = s.forward) ∧
    (f.hcrcGood = true → f.packet = none → ∃ u, completes c s u ∧
      (u.link p j).search = false ∧ (∀ b, b < 6 → some (linkCount (u.link p j).freed b) = f.freed[b]?) ∧
      (∀ b, b < 6 → some (linkCount (u.link p j).rcvd b) = f.sentAll[b]?) ∧ u.arrived = s.arrived) ∧
    (∀ raw, f.hcrcGood = true → f.packet = some raw →
      let q := packetOf raw
      let buf := 2 * wireNum f.cls + if f.vl then 1 else 0
      let a : Arrival := ⟨q, raw, (s.link p j).losses, p, j, f.cls, f.cells, buf⟩
      (f.crcGood = false → ∃ u, completes c s u ∧ u.arrived = s.arrived ∧
        u.forward = s.forward ∧ regsBut [netPortReg p 0x20] s u ∧
        (u.reg (netPortReg p 0x20)).toNat = min ((s.reg (netPortReg p 0x20)).toNat + 1) 0xFFFFFFFF) ∧
      (f.crcGood = true → ∃ u, completes c s u ∧ memSame s u ∧
        (q.rptr < q.nhops → u.forward = s.forward ++ [(p.val / 16, a)] ∧ u.arrived = s.arrived) ∧
        (q.nhops ≤ q.rptr → u.forward = s.forward ∧
          (badPacket q = false → u.arrived = s.arrived ++ [(p.val / 16, a)]) ∧
          (badPacket q = true → u.arrived = s.arrived ∧
            (u.reg (netPortReg p 0x24)).toNat = min ((s.reg (netPortReg p 0x24)).toNat + 1) 0xFFFFFFFF))))) ∧
  (∀ (s : State) (p : Fin 32) (j : Fin 4) (bytes : List Byte), s.linkUp p j = true → s.ethernet p = true →
    etherLen bytes.length = true →
    let f := etherOf bytes
    let q := packetOf f.packet
    let c := Instr.ethernetFrameReceive p j bytes
    let own := field (s.reg 0x70000) 15 0
    let pauses := s.pfc = true ∧ f.etherType = 0x8808 ∧ f.fcsGood = true ∧ bytesBe f.body 1 0 = 0x0101
    (pauses → ∃ u, completes c s u ∧ u = { s with links := u.links } ∧
      ∀ i, i < 8 → tget (fun _ => 0) (u.link p j).pause i = if (bytesBe f.body 3 2).testBit i then
        bytesBe f.body (5 + 2 * i) (4 + 2 * i) * 16 * s.subPorts p else tget (fun _ => 0) (s.link p j).pause i) ∧
    (¬ pauses → f.etherType ≠ own → completes c s s) ∧
    (¬ pauses → f.etherType = own → f.fcsGood = false → completes c s (s.count (netPortReg p 0x20) 1)) ∧
    (¬ pauses → f.etherType = own → f.fcsGood = true → q.nhops ≠ 0 →
      completes c s ((s.count64 (netPortReg p 0x18) 1).count (netPortReg p 0x24) 1)) ∧
    (¬ pauses → f.etherType = own → f.fcsGood = true → q.nhops = 0 → badPacket q = false → ∃ u, completes c s u ∧
      u.arrived = s.arrived ++ [(p.val / 16, ⟨q, f.packet, 0, p, j, ptypeClass q.ptype, cellsFor f.packet.length,
        2 * wireNum (ptypeClass q.ptype)⟩)] ∧ memSame s u ∧
      (s.pfc = false → u = { s with regs := u.regs, arrived := u.arrived } ∧ regsBut [netPortReg p 0x18] s u))) ∧
  (∀ (s : State) (nd : Fin 2) (pre post : List (Nat × Arrival)) (x : Nat × Arrival),
    buffersFront nd [] s.forward = pre ++ x :: post →
    let buf := fun (y : Nat × Arrival) => 2 * wireNum y.2.cls + if (nextHop y.2.pkt).2.2 then 1 else 0
    let way := fun (y : Nat × Arrival) => s.hopReachable nd (nextHop y.2.pkt).1 (nextHop y.2.pkt).2.1
    let room := fun (y : Nat × Arrival) =>
      s.linkRoom (nextHop y.2.pkt).1 (nextHop y.2.pkt).2.1 (buf y) (cellsFor y.2.raw.length)
    (∀ y ∈ pre, way y = true ∧ room y = false) →
    let a := x.2
    let hop := nextHop a.pkt
    (way x = false → ∃ u, completes (.sourceRouteForward nd) s u ∧ u.forward = s.forward.erase x ∧
      (s.ethernet a.port = false → u.out = s.out) ∧
      (u.reg (netPortReg a.port 0x28)).toNat = min ((s.reg (netPortReg a.port 0x28)).toNat + 1) 0xFFFFFFFF) ∧
    (way x = true → room x = true → s.ethernet a.port = false → (a.cls = .rsp ∨ s.level 2 (hop.1 / 16) = 0) →
      ∃ u, completes (.sourceRouteForward nd) s u ∧ u.forward = s.forward.erase x ∧
        u.out = s.out ++ [.frame hop.1 hop.2.1 (packetFrame (buf x) (linkCount (u.link hop.1 hop.2.1).sent (buf x)).toNat
          ((List.range 6).map (linkCount (u.link hop.1 hop.2.1).out)) (nextHopBytes a.raw))] ∧
        linkCount (u.link hop.1 hop.2.1).sent (buf x) =
          linkCount (s.link hop.1 hop.2.1).sent (buf x) + BitVec.ofNat 16 (cellsFor a.raw.length) ∧
        regsBut [netPortReg hop.1 0x10] s u) ∧
    (post = [] → way x = true → room x = false → completes (.sourceRouteForward nd) s s)) ∧
  (∀ bs : List Byte, 48 ≤ bs.length → (packetOf bs).rptr < 8 →
    packetOf (nextHopBytes bs) = { packetOf bs with rptr := (packetOf bs).rptr + 1 })

/-- PACKET_SEND, ACK_SEND, RETRANSMIT_TIMEOUT and RNR_RETRY (R322, R323, R333 to R335): a retransmission that is due goes
first; else the next packet of a flow that may send takes the next PSN, enters the store and leaves, in a transmit slot that
the network duty lets through; an acknowledgement that is owed leaves with CUM_PSN; a timeout of a flow with packets that no
RNR answer holds sends them again with its timer doubled (that held ones keep no timer is the model's reading, log 70), and
the last one that NET_TIMERS allows puts the flow into ERROR with LINK_DOWN; SENDs that found no entry are sent again and
counted. -/
def Obligations.FlowsSend : Prop :=
  ∀ (s : State) (f : FlowId),
    let plain := fun (l : List Stored) => l.map fun x => { x with due := false }
    (∀ x rest, s.dueStored f = none → (s.flow f).queue = x :: rest → s.maySend f x.pkt = true → x.owner = .none →
      let p := { x.pkt with psn := s.txPsn f }
      (s.level 2 (flowDie f - 2) = 0 → ∃ u, completes (.packetSend f) s u ∧ (u.flow f).queue = rest ∧
        (u.flow f).store = (s.flow f).store ++ [{ x with pkt := p }] ∧ u.txPsn f = s.txPsn f + 1 ∧
        u.out = s.out ++ [s.flowFrame f p] ∧ memSame s u ∧
        regsBut [flowReg f 5, netDieReg (f.val / 131072) 0x10, netPortReg (s.flowPort f) 0x10] s u) ∧
      (dutyOpen (s.level 2 (flowDie f - 2)) (tget (fun _ => 0) s.netSlots (flowDie f - 2)) = false →
        ∃ u, completes (.packetSend f) s u ∧ u = { s with netSlots := u.netSlots })) ∧
    (∀ x rest, s.dueStored f = none → (s.flow f).queue = x :: rest → s.maySend f x.pkt = false →
      completes (.packetSend f) s s) ∧
    (∀ x, s.dueStored f = some x → s.flowUp f = true → s.flowRoom f x.pkt = true → s.level 2 (flowDie f - 2) = 0 →
      ∃ u, completes (.packetSend f) s u ∧ u.out = s.out ++ [s.flowFrame f { x.pkt with retx := true }] ∧
        plain (u.flow f).store = plain (s.flow f).store ∧ (u.flow f).queue = (s.flow f).queue ∧ memSame s u ∧
        regsBut [flowReg f 7, netPortReg (s.flowPort f) 0x10] s u) ∧
    ((s.flow f).ackNow = true ∨ 0 < (s.flow f).owed → s.flowState f = 1 ∨ s.flowState f = 2 → s.flowUp f = true →
      s.flowRoom f (s.answer f 7 .ok 0 0 []) = true →
      ∃ u p, completes (.ackSend f) s u ∧ u.out = s.out ++ [s.flowFrame f p] ∧ p.ptype = 7 ∧
        p.cumPsn = s.rxEpsn f ∧ p.sack = sackWord (s.flow f).marks ∧ (u.flow f).owed = 0 ∧
        (u.flow f).ackNow = false ∧ regsBut [netPortReg (s.flowPort f) 0x10] s u) ∧
    (s.flowState f = 1 ∨ s.flowState f = 2 → (∃ x ∈ (s.flow f).store, x.rnr = false) → s.flowUp f = true →
      (field (s.reg 0x70004) 15 12 ≤ (s.flow f).tries + 1 → s.jobs = [] → ∃ u, completes (.retransmitTimeout f) s u ∧
        u.flowState f = 3 ∧ field (u.reg (flowReg f 6)) 39 32 = 15 ∧ (u.flow f).store = [] ∧ memSame s u) ∧
      ((s.flow f).tries + 1 < field (s.reg 0x70004) 15 12 → ∃ u, completes (.retransmitTimeout f) s u ∧
        (u.flow f).tries = (s.flow f).tries + 1 ∧ plain (u.flow f).store = plain (s.flow f).store ∧
        (u.flow f).rto = 2 * (if (s.flow f).rto = 0 then field (s.reg 0x70004) 11 0 else (s.flow f).rto) ∧
        memSame s u)) ∧
    (s.flowUp f = true → (∃ x ∈ (s.flow f).store, x.rnr = true) → ∃ u, completes (.rnrRetry f) s u ∧
      plain (u.flow f).store = plain ((s.flow f).store.map fun x => { x with rnr := false }) ∧ memSame s u ∧
      (u.reg (netDieReg (f.val / 131072) 8)).toNat = min ((s.reg (netDieReg (f.val / 131072) 8)).toNat +
        ((s.flow f).store.filter fun x => x.rnr).length) 0xFFFFFFFF)

/-! ### Operations at their two ends (12_optical_network.md) -/

/-- WRITE, READ, ATOMIC and SEND at their target (R283, R327, R330 to R332, R334, R336): a packet for an open context
that permits it, inside its window of near memory and next in order, has its effect: a WRITE's payload lands, a READ
is answered with the bytes, an ATOMIC adds within its sector, a SEND fills the next entry of the ring with its payload
and its header word; RX_EPSN goes on, and no other byte changes. A packet that no context takes is dropped and
counted; a duplicate has no effect but to be acknowledged again. A packet handled leaves its receive buffer, whose cells
are freed while its link has not gone down since (R322, R338). -/
def Obligations.TargetsExecute : Prop :=
  (∀ (s : State) (x : Nat × Arrival), s.ethernet x.2.port = false →
    let l := s.link x.2.port x.2.sub
    s.consume x = { s with arrived := s.arrived.erase x, links := (s.consume x).links } ∧
      (l.losses ≠ x.2.losses → (s.consume x).links = s.links) ∧
      (l.losses = x.2.losses → linkCount ((s.consume x).link x.2.port x.2.sub).out x.2.buf =
        linkCount l.out x.2.buf + BitVec.ofNat 16 x.2.cells)) ∧
  (∀ (s : State) (nd : Fin 2) (x : Nat × Arrival) (k : Nat), s.nextArrival nd (fun p => p.ptype == k) = some x →
    k = 0 ∨ k = 1 ∨ k = 3 ∨ k = 5 →
    let c := if k = 0 then Instr.write nd else if k = 1 then .read nd else if k = 3 then .atomic nd else .send nd
    (s.flowFor nd x.2.pkt = none → completes c s ((s.consume x).count (netDieReg nd 0) 1)) ∧
    (∀ i, s.flowFor nd x.2.pkt = some i → s.flowState i ≠ 3 → s.psnPlace i x.2.pkt.psn = .behind → k = 0 ∨ k = 5 →
      completes c s ((s.consume x).setFlow i { s.flow i with ackNow := true }))) ∧
  (∀ (s : State) (nd : Fin 2) (x : Nat × Arrival) (i a : Nat), s.flowFor nd x.2.pkt = some i → s.flowState i ≠ 3 →
    s.psnPlace i x.2.pkt.psn = .inside 0 → (s.flow i).marks = [] → s.ecc = [] →
    let p := x.2.pkt
    let n := p.payload.length
    let out := s.consume x
    let taken := fun (u : State) => u.arrived = s.arrived.erase x ∧ u.rxEpsn i = s.rxEpsn i + 1 ∧
      (u.flow i).owed = (s.flow i).owed + 1 ∧ (u.flow i).queue = (s.flow i).queue ∧ (u.flow i).store = (s.flow i).store
    (s.nextArrival nd (fun p => p.ptype == 0) = some x → s.flowPerm i 0 = true → s.window i p.raddr n = some a →
      a + n ≤ 0x8000000000 → (∀ k, k < n → s.reach (flowDie i) (a + k) = .ok) → s.unheld a n →
      ∃ u, completes (.write nd) s u ∧ taken u ∧ u.bytes a n = p.payload ∧ memBut a n s u ∧ u.out = out.out ∧
        regsBut [flowReg i 6] out u) ∧
    (s.nextArrival nd (fun p => p.ptype == 1) = some x → s.flowPerm i 1 = true → s.window i p.raddr p.len = some a →
      a + p.len ≤ 0x8000000000 → (∀ k, k < p.len → s.reach (flowDie i) (a + k) = .ok) → s.flowUp i = true →
      let r := s.answer i 2 .ok 0 p.psn (s.bytes a p.len)
      s.flowRoom i r = true →
      ∃ u, completes (.read nd) s u ∧ taken u ∧ u.out = out.out ++ [out.flowFrame i r] ∧
        r.ptype = 2 ∧ r.status = 0 ∧ r.ref = p.psn ∧ r.payload = s.bytes a p.len ∧ memSame s u ∧
        regsBut [flowReg i 6, netPortReg (s.flowPort i) 0x10] out u) ∧
    (s.nextArrival nd (fun p => p.ptype == 3) = some x → s.flowPerm i 2 = true → s.window i p.raddr n = some a →
      0 < n → a % 32 + n ≤ 32 → s.atomicOk p a = true → s.reach (flowDie i) a = .ok → p.fetch = false → s.unheld a n →
      ∃ u, completes (.atomic nd) s u ∧ taken u ∧ u.bytes a n = s.addBytes p.afmt a p.payload ∧ memBut a n s u ∧
        regsBut [flowReg i 6, stackReg (s.stackOf a) 0x20] out u) ∧
    (s.nextArrival nd (fun p => p.ptype == 5) = some x → s.flowPerm i 3 = true →
      let log := field (s.reg (flowReg i 3)) 55 52
      let cons := field (s.reg (flowReg i 4)) 31 16
      1 ≤ log → log ≤ 12 → field (s.reg (flowReg i 4)) 15 0 ≠ cons → n ≤ 4096 →
      s.memAt (s.flowPart i) (field (s.reg (flowReg i 3)) 51 0 + 4160 * (cons % 2 ^ log)) 4160 = some a →
      a + 4160 ≤ 0x8000000000 → (∀ k, k < 4160 → s.reach (flowDie i) (a + k) = .ok) → s.unheld a 4160 →
      ∃ u, completes (.send nd) s u ∧ taken u ∧ u.bytes (a + 64) n = p.payload ∧
        u.num a 8 = (n + p.srcFlow * 2 ^ 14 + 2 ^ 63) % 2 ^ 64 ∧
        (∀ b, ¬ (a ≤ b ∧ b < a + 8) → ¬ (a + 64 ≤ b ∧ b < a + 64 + n) → u.byte b = s.byte b) ∧
        field (u.reg (flowReg i 4)) 31 16 = (cons + 1) % 65536 ∧ regsBut [flowReg i 4, flowReg i 6] out u))

/-- READ_RSP, ATOMIC_RSP, ACK and NACK at the issuer (R330, R331, R334, R335): the response to a stored READ lands at
its burst's destination; that of a FETCH ATOMIC is stored and completes its command; an acknowledgement takes every
packet it covers out of the store; an RNR holds its SEND; an error ends its command with the status. -/
def Obligations.IssuersHear : Prop :=
  ∀ (s : State) (nd : Fin 2) (x : Nat × Arrival) (i : Nat) (y : Stored), s.flowFor nd x.2.pkt = some i →
    s.flowState i ≠ 3 → s.ecc = [] →
    let p := x.2.pkt
    let kept := (s.flow i).store.filter fun z => z != y
    (∀ b, s.nextArrival nd (fun p => p.ptype == 2) = some x → s.storedFor i p.ref (fun q => q.ptype == 1) = some y →
      y.owner = .chan b → p.status = 0 → p.payload.length = y.pkt.len → 0 < y.pkt.len →
      y.dst + y.pkt.len ≤ 0x8000000000 → (∀ k, k < y.pkt.len → s.reach (chanSrc b.ch).die (y.dst + k) = .ok) →
      s.unheld y.dst y.pkt.len →
      ∃ u, completes (.readRsp nd) s u ∧ u.bytes y.dst y.pkt.len = p.payload ∧ memBut y.dst y.pkt.len s u ∧
        (u.flow i).store = kept ∧ u.arrived = s.arrived.erase x ∧
        (u.chan b.ch).flight = (s.chan b.ch).flight.map fun (d : Desc) =>
          if d.id = b.desc then { d with openB := d.openB - 1 } else d) ∧
    (∀ cid, s.nextArrival nd (fun p => p.ptype == 4) = some x →
      s.storedFor i p.ref (fun q => q.ptype == 3 && q.fetch) = some y → y.owner = .cmd cid → p.status = 0 →
      0 < p.payload.length → y.dst + p.payload.length ≤ 0x8000000000 →
      (∀ k, k < p.payload.length → s.reach (flowDie i) (y.dst + k) = .ok) → s.unheld y.dst p.payload.length →
      ∃ u, completes (.atomicRsp nd) s u ∧ u.bytes y.dst p.payload.length = p.payload ∧
        memBut y.dst p.payload.length s u ∧ (u.flow i).store = kept ∧ u.cmds = (s.finish cid .ok).cmds ∧
        u.arrived = s.arrived.erase x) ∧
    (s.nextArrival nd (fun p => p.ptype == 7) = some x → p.sack = 0 →
      (p.cumPsn - (s.flow i).cumSeen).toNat ≤ (s.txPsn i - (s.flow i).cumSeen).toNat →
      ∃ u, completes (.ack nd) s u ∧ (u.flow i).cumSeen = p.cumPsn ∧ u.arrived = s.arrived.erase x ∧ memSame s u ∧
        (u.flow i).store = (s.flow i).store.filter fun z =>
          !(decide (2 ^ 31 ≤ (z.pkt.psn - p.cumPsn).toNat) && !(z.pkt.ptype == 1 || (z.pkt.ptype == 3 && z.pkt.fetch)))) ∧
    (s.nextArrival nd (fun p => p.ptype == 8) = some x → s.storedFor i p.ref (fun _ => true) = some y → p.sack = 0 →
      p.cumPsn = (s.flow i).cumSeen → (∀ z ∈ (s.flow i).store, (z.pkt.psn - p.cumPsn).toNat < 2 ^ 31) →
      (p.reason = 1 → ∃ u, completes (.nack nd) s u ∧ u.arrived = s.arrived.erase x ∧ memSame s u ∧
        (u.flow i).store = (s.flow i).store.map (fun z => if z.pkt.psn = p.ref then { z with rnr := true } else z)) ∧
      (∀ cid, p.reason = 2 → y.owner = .cmd cid → y.pkt.ptype ≠ 6 → ∃ u, completes (.nack nd) s u ∧
        u.arrived = s.arrived.erase x ∧ memSame s u ∧ (u.flow i).store = kept ∧
        u.cmds = (s.finish cid (Status.ofCode p.status)).cmds))

/-! ### Collectives (13_gradient_collectives.md) -/

/-- COL_JOB, CHUNK_INJECT, CREDIT_SEND, COL_JOB_COMPLETE, CREDIT and ABORT (R35, R343 to R345, R366 to R371): a job whose
record is in order and that nothing refuses runs; a malformed one is dropped with FORMAT and aborted in both
directions; in a slot that the network duty lets go, a chunk that waits to be forwarded leaves with one free slot at the
successor, and takes it, else one to be injected with two; in a gated slot, or with no slot free at the successor,
nothing leaves; a grant that has arrived is the job's; a CREDIT names the slots freed plus the pool; an ABORT stops the job, once, and one for no
job is held; a job with nothing left writes its status area and its command reports the status. -/
def Obligations.CollectiveJobs : Prop :=
  (∀ (s : State) (c : Cmd) (a : Nat), s.passed c.cid 0x30 = some c → (∀ k ∈ s.jobs, k.cid ≠ c.cid) →
    (c.engine = 160 ∨ c.engine = 161) →
    let nd := c.engine - 160
    s.dieLost (2 + nd) = false → s.ecc = [] → s.memAt c.part (addrAt c.bytes 32) 192 = some a → a + 192 ≤ 0x8000000000 →
    (∀ k, k < 192 → s.reach (2 + nd) (a + k) = .ok) →
    let r := jobRec (s.bytes a 192)
    let flow := fun w => (s.engineFlow c.engine c.part w).getD 262144
    let r := { r with nextFlow := flow r.nextFlow, prevFlow := flow r.prevFlow }
    (jobMalformed (s.bytes a 192) r = true → completes (.colJob c.cid) s
      ((((s.taken c).send (collSrc nd) a 192 true false).dropCmd c .format).originateAbort nd r.nextFlow r.prevFlow r.tag r.step 6)) ∧
    (jobMalformed (s.bytes a 192) r = false → (∀ e ∈ jobExtents r, (s.memAt c.part e.1 e.2).isSome = true) →
      s.jobRefused nd r = none → ∃ u j, completes (.colJob c.cid) s u ∧ u.jobs = s.jobs ++ [j] ∧ j.cid = c.cid ∧
        j.jrec = r ∧ j.nd = nd ∧ j.outq = [] ∧ j.stopped = false ∧ memSame s u ∧
        u.cmds = (s.setCmd { c with phase := .running }).cmds)) ∧
  (∀ (s : State) (nd : Fin 2) (tag step : BitVec 16) (j : Job), s.job? nd tag step = some j →
    (∀ x, s.flowState j.jrec.nextFlow = 1 → s.level 2 nd = 0 → 0 < (j.grant - j.sent).toNat →
      (j.outq.find? (fun (x : Chunk × Bool × Bool) => !x.2.1) = some x ∨
        (j.outq.head? = some x ∧ (∀ y ∈ j.outq, y.2.1 = true) ∧ 2 ≤ (j.grant - j.sent).toNat ∧ j.stopped = false)) →
      ∃ u k, completes (.chunkInject nd tag step) s u ∧ u.job? nd tag step = some k ∧ k.sent = j.sent + 1 ∧
        k.outq = j.outq.erase x ∧ (u.flow j.jrec.nextFlow).queue.map (fun y => y.pkt.payload) =
          (s.flow j.jrec.nextFlow).queue.map (fun y => y.pkt.payload) ++ [x.1.encode] ∧ memSame s u ∧ regsBut [] s u) ∧
    (j.grant = j.sent ∨ dutyOpen (s.level 2 nd) (tget (fun _ => 0) s.netSlots (2 + nd)) = false →
      ∃ u, completes (.chunkInject nd tag step) s u ∧ u = { s with netSlots := u.netSlots }) ∧
    (let i := j.jrec.prevFlow
      let p := s.creditPacket i j
      s.flowState i = 1 → s.flowUp i = true → s.flowRoom i p = true →
      ∃ u k, completes (.creditSend nd tag step) s u ∧ u.out = s.out ++ [s.flowFrame i p] ∧
        u.job? nd tag step = some k ∧ k.granted = j.freed + BitVec.ofNat 16 j.jrec.pool) ∧
    (∀ a, (j.agDone = j.jrec.nb ∨ j.stopped = true) → j.outq = [] → j.pendingAg = [] →
      s.chunksInFlight j.jrec.nextFlow tag step = false → s.chunksInFlight j.jrec.prevFlow tag step = false →
      s.memAt j.part (j.recAddr + 160) 32 = some a → a + 32 ≤ 0x8000000000 → s.ecc = [] → s.unheld a 32 →
      (∀ k, k < 32 → s.reach (2 + nd.val) (a + k) = .ok) →
      let st := j.faults.foldl Status.merge (if j.agRepaired then Status.ovf else .ok)
      ∃ u, completes (.colJobComplete nd tag step) s u ∧ u.jobs = s.jobs.filter (fun k => k.cid != j.cid) ∧
        u.bytes a 32 = statusArea st j.byPeer j.nanBlk j.repairs j.fallback j.ownDone ∧ memBut a 32 s u ∧
        u.cmds = (s.finish j.cid st).cmds ∧ regsBut [] s u)) ∧
  (∀ (s : State) (nd : Fin 2) (x : Nat × Arrival) (i : Nat), s.flowFor nd x.2.pkt = some i → s.flowState i ≠ 3 →
    let p := x.2.pkt
    let key := chunkKey p.payload
    (∀ j c, s.nextArrival nd (chunkOf [3]) = some x → s.job? nd key.1 key.2 = some j →
      Chunk.decode p.payload 0 = some c → s.flowPerm i 4 = true → ∃ u, completes (.credit nd) s u ∧
        u.job? nd key.1 key.2 = some { j with grant := p.ref.setWidth 16 } ∧ u.arrived = s.arrived.erase x ∧
        u.flows = s.flows ∧ memSame s u ∧ regsBut [] (s.consume x) u) ∧
    (∀ off c, s.nextArrival nd (chunkOf [4]) = some x → s.psnPlace i p.psn = .inside off → s.flowPerm i 4 = true →
      Chunk.decode p.payload 0 = some c →
      (∀ j, s.job? nd key.1 key.2 = some j → j.stopped = false → ∃ u k, completes (.abort nd) s u ∧
        u.job? nd key.1 key.2 = some k ∧ k.stopped = true ∧ k.byPeer = true ∧ k.pendingAg = [] ∧
        k.faults = j.faults ++ [Status.ofCode c.status] ∧ u.arrived = s.arrived.erase x ∧
        flag (u.reg (colReg nd 0)) 21 = true ∧ memSame s u) ∧
      (s.job? nd key.1 key.2 = none → s.aborts = [] → ∃ u, completes (.abort nd) s u ∧
        u.aborts = [(nd.val, ⟨key.1, key.2, c.status⟩)] ∧ u.arrived = s.arrived.erase x ∧ memSame s u)))

/-- RS, REPAIR and AG (R350, R352, R355, R356, R365): a position that is not the owner adds its contribution to a
record and passes the chunk on; the first position answers a repair with a fresh record at the grid it asks for; the
owner updates a block that is whole and in order, and frees the chunk's slot; an AG record's parameters and next grid
are written, and the chunk goes on unless the successor is its owner. -/
def Obligations.ChunksAreHandled : Prop :=
  ∀ (s : State) (nd : Fin 2) (x : Nat × Arrival) (i off : Nat) (j : Job) (c : Chunk),
    let handled := fun (i : Instr) (u : State) (k : Job) => completes i s u ∧ u.arrived = s.arrived.erase x ∧
      u.job? nd (chunkKey x.2.pkt.payload).1 (chunkKey x.2.pkt.payload).2 = some k
    (∀ r xs, s.chunkHere nd [0, 5, 6, 7] x i off j c → c.body = .rs [r] → s.gradient j r.block xs →
      let q := contribute c.wide xs r
      (c.shard ≠ j.jrec.pos → ∃ u k, handled (.rs nd) u k ∧ memSame s u ∧
        k = { j with outq := j.outq ++ [({ c with
          status := ((Status.ofCode c.status).merge .ok).code, body := .rs [q] }, false, true)] }) ∧
      (c.shard = j.jrec.pos → q.fail = false → q.nan = false → q.ovf = false → q.cnt.toNat = j.jrec.n →
        q.csum = BitVec.ofInt 16 q.sums.sum → c.round < 4 → j.stopped = false →
        (∀ e ∈ jobExtents j.jrec, e.1 + e.2 ≤ 0x8000000000 ∧ s.unheld e.1 e.2) → (∀ a, a < 0x8000000000 → s.reach (2 + j.nd) a = .ok) →
        r.block < j.jrec.nb → j.jrec.shardAt j.jrec.pos ≤ r.block → r.block < j.jrec.shardAt (j.jrec.pos + 1) →
        ∃ u k a, handled (.rs nd) u k ∧ k = { j with
          pendingAg := j.pendingAg ++ [a], agDone := j.agDone + 1, ownDone := j.ownDone + 1, freed := j.freed + 1 } ∧
          a.block = r.block ∧ a.skipped = false)) ∧
    (∀ b g xs, s.chunkHere nd [1] x i off j c → c.body = .repair [(b, g)] → j.stopped = false → s.gradient j b xs →
      ∃ u k, handled (.repair nd) u k ∧ memSame s u ∧
        k = { j with outq := j.outq ++ [({ c with
          status := Status.code .ok, body := .rs [contribute c.wide xs (freshRec b g)] }, true, true)] }) ∧
    (∀ a, s.chunkHere nd [2] x i off j c → c.body = .ag [a] → 6 ≤ j.jrec.pfmt →
      let p := j.jrec.pBase + j.jrec.pSize * a.block
      let g := j.jrec.gridBase + (j.jrec.step.toNat + 1) % 2 * j.jrec.nb + a.block
      p + a.bytes.length ≤ 0x8000000000 → g < 0x8000000000 → (g < p ∨ p + a.bytes.length ≤ g) →
      s.unheld p a.bytes.length → s.unheld g 1 →
      (∀ k, k < 0x8000000000 → s.reach (2 + j.nd) k = .ok) →
      ∃ u k, handled (.ag nd) u k ∧ u.bytes p a.bytes.length = a.bytes ∧ u.num g 1 = a.gridn % 256 ∧
        (∀ b, ¬ (p ≤ b ∧ b < p + a.bytes.length) → b ≠ g → u.byte b = s.byte b) ∧ k.agDone = j.agDone + 1 ∧
        ((j.jrec.pos + 1) % j.jrec.n = c.shard → k.freed = j.freed + 1 ∧ k.outq = j.outq) ∧
        ((j.jrec.pos + 1) % j.jrec.n ≠ c.shard → k.outq = j.outq ++ [(c, false, true)] ∧ k.freed = j.freed))

/-! ### Hosts and register space (14_host_queues.md, 00_scope.md) -/

/-- PCIE_CONFIG_REQUEST, BAR2_READ, BAR2_WRITE and TQ_BAR2_BASE_WRITE (R372, R373, R375, R409, R439): a released port
answers configuration requests: it writes a function's Bus Master Enable, its ATS enable and its reporting of ERR_NONFATAL,
tells and clears what AER has recorded, answers an invalidation, tells TotalVFs, and resizes BAR2 to a power of two from
1 GiB to 512 GiB; one not yet released answers Retry Status. The places of the errors in what it tells, and the requests that
only complete, are the model's choice (log 162). BAR2 reads and writes the partition's memory at the window's base; what
lies outside is Unsupported Request, what cannot be reached is a Completer Abort, and a poisoned write is dropped: AER records
both. A base that is a multiple of the BAR2 size is stored, any other is ignored. FUNCTION_LEVEL_RESET (R377): on an owning
port that serves requests and with no command fetched, the function, or the PF and all of its VFs, is reset: its active
queues are destroyed, its graphs deleted, its routes disabled, its MSI-X table and pending bits back at reset; the PF's reset
also clears the BAR2 base. Memory stays. -/
def Obligations.HostsReachMemoryAndResetFunctions : Prop :=
  ((∀ (s : State) (p : Fin 2), s.mode ≠ .off → s.mode ≠ .tripped → s.dieLost (2 + p) = false →
     s.domainLostAt (18 + p) = false →
     let x := s.port p
     let done := fun (i : CfgReq) (u : State) => completes (.pcieConfigRequest (p, i)) s u ∧
       u = { s with ports := u.ports, out := s.out ++ [.configDone p] } ∧ ∀ k, k ≠ p.val → u.port k = s.port k
     let bits := fun (v w : BitVec 32) (fn : Fin 32) (b : Bool) =>
       ∀ k, k < 32 → w.toNat.testBit k = if k = fn then b else v.toNat.testBit k
     (x.released = false → ∀ i, completes (.pcieConfigRequest (p, i)) s (s.emit (.retryStatus p))) ∧
     (x.released = true →
       (∀ fn on, ∃ u b, done (.busMaster fn on) u ∧ u.port p = { x with busMaster := b } ∧ bits x.busMaster b fn on) ∧
       (∀ fn on, ∃ u b, done (.ats fn on) u ∧ u.port p = { x with ats := b } ∧ bits x.ats b fn on) ∧
       (∀ fn on, ∃ u b, done (.aerEnable fn on) u ∧ u.port p = { x with aerEn := b } ∧ bits x.aerEn b fn on) ∧
       (∀ fn, completes (.pcieConfigRequest (p, .aerRead fn)) s (s.emit (.configData p
         ((if x.aerAbort.toNat.testBit fn then 0x8000 else 0) + if x.aerPoison.toNat.testBit fn then 0x1000 else 0)))) ∧
       (∀ fn, ∃ u b c, done (.aerClear fn) u ∧ u.port p = { x with aerAbort := b, aerPoison := c } ∧
         bits x.aerAbort b fn false ∧ bits x.aerPoison c fn false) ∧
       (∀ fn, completes (.pcieConfigRequest (p, .invalidate fn)) s
         ((s.emit (.invalidated p fn)).emit (.configDone p))) ∧
       completes (.pcieConfigRequest (p, .totalVfs)) s
         (s.emit (.configData p (if s.mode = .running ∧ s.ownsParts p = true then 31 else 0))) ∧
       (∀ n, (30 ≤ n → n ≤ 39 → ∃ u, done (.resizeBar2 n) u ∧ u.port p = { x with bar2 := some n } ∧ u.bar2Log2 p = n) ∧
         (n < 30 ∨ 39 < n → done (.resizeBar2 n) (s.emit (.configDone p)))) ∧
       done .other (s.emit (.configDone p)))) ∧
   (∀ (s : State) (p : Fin 2) (off n : Nat) (bs : List Byte) (bad : Bool), s.dieLost (2 + p) = false → 0 < n →
     n ≤ 4096 → bs ≠ [] → bs.length ≤ 512 →
     (s.bar2Part p = none → completes (.bar2Read p off n) s (s.emit (.unsupported p)) ∧
       completes (.bar2Write p off bs bad) s s) ∧
     (∀ part, s.bar2Part p = some part →
       (s.bar2Addr part off n = none → completes (.bar2Read p off n) s (s.emit (.unsupported p))) ∧
       (s.bar2Addr part off bs.length = none → completes (.bar2Write p off bs false) s s) ∧
       (∃ t, completes (.bar2Write p off bs true) s t ∧ t = { s with ports := t.ports, out := s.out ++ [.poisonedTlp p] } ∧
         (t.port p).aerPoison.toNat.testBit 0 = true) ∧
       (∀ a, s.bar2Addr part off n = some a → s.reachAll (2 + p) a n ≠ .ok → ∃ t, completes (.bar2Read p off n) s t ∧
         t = { s with ports := t.ports, out := t.out } ∧ (t.port p).aerAbort.toNat.testBit 0 = true ∧
         t.out = s.out ++ .completerAbort p :: if (s.port p).aerEn.toNat.testBit 0 then [.errNonfatal p 0] else []) ∧
       (∀ a, s.ecc = [] → a + n ≤ 0x8000000000 → a + bs.length ≤ 0x8000000000 →
         (∀ k, k < 0x8000000000 → s.reach (2 + p) k = .ok) →
         (s.bar2Addr part off n = some a → completes (.bar2Read p off n) s
           ((s.send (pcieSrc p) a n true false).emit (.pcieData p (s.bytes a n)))) ∧
         (s.bar2Addr part off bs.length = some a → s.unheld a bs.length → ∃ t, completes (.bar2Write p off bs false) s t ∧
           t.bytes a bs.length = bs ∧ memBut a bs.length s t ∧ t = { s with mem := t.mem, fab := t.fab })))) ∧
   (∀ (s : State) (path : Path) (v : BitVec 64) (o : Nat), s.kernelOff path 0x600008 = some o →
     (v.toNat % 2 ^ 52 % 2 ^ s.bar2Log2 (s.portOf (o / 0x10000000)) = 0 → ∃ t, completes (.tqBar2BaseWrite path v) s t ∧
       (t.reg o).toNat = v.toNat % 2 ^ 52 ∧ onlyRegs [o] s t) ∧
     (v.toNat % 2 ^ 52 % 2 ^ s.bar2Log2 (s.portOf (o / 0x10000000)) ≠ 0 → completes (.tqBar2BaseWrite path v) s s))) ∧
  (∀ (s : State) (p : Fin 2) (fn : Fin 32), s.portServes p = true → s.ownsParts p = true → s.cmds = [] →
     let part := s.portPart p
     ∃ t, completes (.functionLevelReset p fn) s t ∧ memSame s t ∧ t.ports = s.ports ∧
       (fn = 0 → t.reg (adminBank part + 0x600008) = 0) ∧
       ∀ f, f < 32 → (fn = 0 ∨ fn.val = f) →
         (∀ q, q < 4096 → s.queuePart q = part → s.queueState q = 1 → field (s.reg (queueReg q 0)) 13 9 = f →
           t.queueState q = 2) ∧
         (∀ v ∈ t.versions, s.graphPart v.graph = part → s.graphFunc v.graph = f →
           v.pending = false ∧ v.current = false) ∧
         (∀ n, n < 1024 → field (s.reg (adminBank part + routeReg n)) 12 8 = f →
           flag (t.reg (adminBank part + routeReg n)) 15 = false) ∧
         (∀ v half, v < 64 → half < 2 → tget msixReset t.msix (msixKey p f v half) = msixReset half) ∧
         (∀ v, (p.val, f, v) ∉ t.msixPend))

/-- TQ_CTR_ADD_WRITE, TQ_CTR_VALUE_WRITE and REGISTER_WRITE (R6, R7, R374, R408, R410, R440): a counter takes an
addition from the kernel path and from a VF's window, a value from the kernel path alone; a write of an offset that
holds no register does nothing, one of a read-only register changes nothing, one of a WC field clears the bits written
1, one of an RW field stores it; a port that serves no requests changes nothing. -/
def Obligations.HostsWriteRegisters : Prop :=
  (∀ (s : State) (path : Path) (i : Fin 65536) (v : BitVec 64),
    (∀ x k, s.counterPath path = some x → s.physCtr x.1 i = some k → s.dieLost (ctrDie k) = false →
      ∃ t, completes (.tqCtrAddWrite path i v) s t ∧ t.reg (ctrReg k) = s.reg (ctrReg k) + v ∧
        onlyRegs [ctrReg k] s t) ∧
    (∀ part k, s.kernelPath path = some part → s.physCtr part i = some k → s.dieLost (ctrDie k) = false →
      (∃ t, completes (.tqCtrValueWrite path i v) s t ∧ t.reg (ctrReg k) = v ∧ onlyRegs [ctrReg k] s t) ∧
      (∃ t, completes (.registerWrite path (0x500000 + 16 * i.val) true v) s t ∧ t.reg (ctrReg k) = v ∧
        onlyRegs [ctrReg k] s t) ∧
      ∃ t, completes (.registerWrite path (0x500008 + 16 * i.val) true v) s t ∧
        t.reg (ctrReg k) = s.reg (ctrReg k) + v ∧ onlyRegs [ctrReg k] s t) ∧
    (s.kernelPath path = none → completes (.tqCtrValueWrite path i v) s s ∧
      (s.vfPath path = none → completes (.tqCtrAddWrite path i v) s s))) ∧
  (∀ (s : State) (path : Path) (part : Nat) (wide : Bool) (v : BitVec 64), s.kernelPath path = some part →
    (∀ off o, s.physOff part off = some o → ¬ (0x2000000 ≤ off ∧ off < 0x2800000) → ¬ (0x90000 ≤ o ∧ o < 0x90800) →
      regsIn o (if wide then 8 else 4) = [] → completes (.registerWrite path off wide v) s s) ∧
    (∃ t, completes (.registerWrite path 0x8 false v) s t ∧ onlyRegs [] s t) ∧
    (∃ t, completes (.registerWrite path 0x10010 false v) s t ∧ onlyRegs [0x10010] s t ∧
      ∀ n, flag (t.reg 0x10010) n = (flag (s.reg 0x10010) n && !(decide (1 ≤ n ∧ n ≤ 3) && v.toNat.testBit n))) ∧
    (∃ t, completes (.registerWrite path 0x1001C false v) s t ∧ onlyRegs [0x1001C] s t ∧
      field (t.reg 0x1001C) 2 0 = v.toNat % 8)) ∧
  (∀ (s : State) (p : Fin 2) (fn : Fin 32) (off : Nat) (wide : Bool) (v : BitVec 64), s.portServes p = false →
    completes (.registerWrite (.bar0 p fn) off wide v) s s)

/-! ### Queues (14_host_queues.md) -/

/-- QCREATE, QDESTROY, QDESTROY_DONE and TQ_TAIL_WRITE (R378 to R380, R397, R409): through the kernel path a queue
that may be created starts ACTIVE and empty, with its registers cleared; any other is refused. An active queue becomes
DESTROYING, and what it has fetched and not started completes ABORTED; once nothing of it is left it is DESTROYED. A
doorbell that leaves at most SIZE entries posted moves the tail; a larger one is ignored, counted and recorded. -/
def Obligations.QueuesComeAndGo : Prop :=
  (∀ (s : State) (path : Path) (q : Fin 4096) (part k : Nat), s.kernelPath path = some part →
    s.physQueue part q = some k → k < 4096 → s.dieLost (queueDie k) = false →
    let done := adminBank part + 0x600004
    (s.mayCreate part k = true → ∃ t, completes (.qcreate path q) s t ∧ t.queueState k = 1 ∧
      (∀ o ∈ [0x10, 0x14, 0x18, 0x28, 0x30, 0x34, 0x38, 0x48, 0x50], t.reg (queueReg k o) = 0) ∧
      t.queue k = Queue.reset ∧ (t.reg done).toNat = q.val ∧ t = { s with regs := t.regs, queues := t.queues } ∧
      regsBut (done :: [0x10, 0x14, 0x18, 0x20, 0x28, 0x30, 0x34, 0x38, 0x48, 0x50].map (queueReg k)) s t) ∧
    (s.mayCreate part k = false → ∃ t, completes (.qcreate path q) s t ∧ (t.reg done).toNat = q.val + 4096 ∧
      onlyRegs [done] s t) ∧
    (s.queueState k = 1 → (s.cmds.map (fun (c : Cmd) => c.cid)).Nodup →
      (∀ c ∈ s.queueCmds k, c.phase = .waiting ∨ c.phase = .passed) →
      ∃ t, completes (.qdestroy path q) s t ∧ t.queueState k = 2 ∧ (t.reg done).toNat = q.val ∧
        t = { s with regs := t.regs, cmds := t.cmds } ∧ regsBut [done, queueReg k 0x20] s t ∧
        t.cmds = s.cmds.map fun (c : Cmd) =>
          if c ∈ s.queueCmds k then { c with phase := .done .aborted, abortReq := true } else c)) ∧
  (∀ (s : State) (q : Fin 4096),
    (s.queueState q = 2 → s.queueCmds q = [] → ∃ t, completes (.qdestroyDone q) s t ∧ t.queueState q = 3 ∧
      t = { s with regs := t.regs, queues := t.queues } ∧ regsBut [queueReg q 0x20] s t) ∧
    (s.queueState q ≠ 2 ∨ s.queueCmds q ≠ [] → completes (.qdestroyDone q) s s)) ∧
  (∀ (s : State) (path : Path) (q : Fin 4096) (v : BitVec 32) (k : Nat), s.doorbell path q = some k →
    let size := 2 ^ field (s.reg (queueReg k 0)) 18 14
    let posted := (v.toNat % 65536 + 65536 - (s.reg (queueReg k 0x14)).toNat) % 65536
    (s.queueState k = 1 → posted ≤ size → ∃ t, completes (.tqTailWrite path q v) s t ∧
      (t.reg (queueReg k 0x10)).toNat = v.toNat % 65536 ∧ onlyRegs [queueReg k 0x10] s t) ∧
    (s.queueState k = 1 → size < posted → ∃ t, completes (.tqTailWrite path q v) s t ∧
      (t.reg (queueReg k 0x38)).toNat = 1 + 256 * (v.toNat % 65536) ∧ flag (t.reg (queueReg k 0x20)) 7 = true ∧
      (t.reg (queueReg k 0x34)).toNat = min ((s.reg (queueReg k 0x34)).toNat + 1) 0xFFFFFFFF ∧
      onlyRegs [queueReg k 0x34, queueReg k 0x38, queueReg k 0x20] s t) ∧
    (s.queueState k ≠ 1 → completes (.tqTailWrite path q v) s s))

/-- QUEUE_FETCH (R314, R380, R382 to R384): a queue whose turn has come at its engine's front end takes the 64 bytes at its
head, from near memory or from its host, with its PASID and through ATS where they are enabled; one whose turn has not come
takes nothing. A command that its checks accept joins the front end, waiting or passed to its engine; one they refuse
is ignored, counted and recorded; a host that does not answer halts the queue's fetch with a fault. -/
def Obligations.QueuesFetch : Prop :=
  (∀ (s : State) (q : Fin 4096) (host : HostReply), (∀ e, s.queueEngine q = some e → s.turnOf e ≠ some q.val) →
    completes (.queueFetch q host) s s) ∧
  ∀ (s : State) (q : Fin 4096) (host : HostReply) (e : Nat), s.mode = .running → s.queueEngine q = some e →
    s.turnOf e = some q.val → s.ecc = [] →
    let cfg := s.reg (queueReg q 0)
    let part := s.queuePart q
    let head := (s.reg (queueReg q 0x14)).toNat
    let seq := (s.queue q).nextSeq
    let request : HostReq := ⟨s.portOf part, field cfg 13 9, (field (s.reg (queueReg q 8)) 63 6 * 64 +
      64 * (head % 2 ^ field cfg 18 14)) % 2 ^ 64, if flag cfg 20 then some (field (s.reg (queueReg q 4)) 19 0) else none,
      (s.port (s.portOf part)).ats.toNat.testBit (field cfg 13 9)⟩
    let asked := fun (t : State) => tget (fun _ => 0) t.qTurn e = q.val + 1 ∧
      t.out = s.out ++ if flag cfg 19 = true ∧ s.hostReach (s.portOf part) (field cfg 13 9) = true then
        [.hostRead request 64] else []
    (∀ bs a, (flag cfg 19 = true ∧ s.hostReach (s.portOf part) (field cfg 13 9) = true ∧ host = .data bs ∧
          bs.length = 64) ∨
        (flag cfg 19 = false ∧ s.memAt part (field (s.reg (queueReg q 8)) 51 6 * 64 + 64 * (head % 2 ^ field cfg 18 14)) 64 =
          some a ∧ a + 64 ≤ 0x8000000000 ∧ s.contained = false ∧ (∀ k, k < 64 → s.reach (queueDie q) (a + k) = .ok) ∧
          bs = s.bytes a 64) →
      (s.cmdCheck part e (flag cfg 8) bs = none → s.contained = false → s.pathLost (queueDie q) (engineDie e) = false →
        (e < 128 → s.retired e = false) → ∃ t c, completes (.queueFetch q host) s t ∧ asked t ∧ t.cmds = s.cmds ++ [c] ∧
          c.bytes = bs ∧ c.cid = s.nextCid ∧ c.origin = .queue q seq ∧ c.engine = e ∧ c.part = part ∧
          c.kernel = flag cfg 8 ∧ c.phase = (if waitEn bs then .waiting else .passed) ∧
          (t.reg (queueReg q 0x14)).toNat = (head + 1) % 65536 ∧ (t.queue q).nextSeq = seq + 1 ∧
          regsBut [queueReg q 0x14] s t ∧ memSame s t) ∧
      (∀ reason, s.cmdCheck part e (flag cfg 8) bs = some reason → ∃ t, completes (.queueFetch q host) s t ∧
        tget (fun _ => 0) t.qTurn e = q.val + 1 ∧ t.cmds = s.cmds ∧ (t.reg (queueReg q 0x14)).toNat = (head + 1) % 65536 ∧
        t.reg (queueReg q 0x38) = BitVec.ofNat 64 (reason.code + 256 * seq) ∧
        (t.reg (queueReg q 0x34)).toNat = min ((s.reg (queueReg q 0x34)).toNat + 1) 0xFFFFFFFF ∧
        flag (t.reg (queueReg q 0x20)) 7 = true ∧ memSame s t)) ∧
    (flag cfg 19 = true → host = .busError → ∃ t, completes (.queueFetch q host) s t ∧ tget (fun _ => 0) t.qTurn e = q.val + 1 ∧ t.cmds = s.cmds ∧
      flag (t.reg (queueReg q 0x20)) 8 = true ∧ flag (t.reg (queueReg q 0x20)) 2 = true ∧
      (t.reg (queueReg q 0x30)).toNat = min ((s.reg (queueReg q 0x30)).toNat + 1) 0xFFFFFFFF ∧ memSame s t ∧
      regsBut [queueReg q 0x20, queueReg q 0x28, queueReg q 0x30] s t)

/-- NOP, WAIT_GE_RELEASE, WAIT_STALL and COMMAND_COMPLETE (R382, R387, R394, R395): a NOP completes; a command at the
head goes on when its counter has reached its value, and not before; a wait past its queue's limit is recorded once; a
completed command moves DONE_SEQ on and signals its counter, and a fault is counted and recorded; one that the QDESTROY of its queue aborted only leaves
(R397; log 160). -/
def Obligations.CommandsWaitAndComplete : Prop :=
  (∀ (s : State) (cid : Nat) (c : Cmd), s.passed cid 0x00 = some c → completes (.nop cid) s ((s.taken c).finish cid .ok)) ∧
  (∀ (s : State) (q : Fin 4096) (c : Cmd), s.headCmd q = some c → waitEn c.bytes = true →
    (∀ i, s.physCtr c.part (waitCtr c.bytes) = some i → s.pathLost (queueDie q) (ctrDie i) = false →
      (waitVal c.bytes ≤ (s.ctr i).toNat →
        completes (.waitGeRelease q) s (s.setCmd { c with phase := .passed })) ∧
      ((s.ctr i).toNat < waitVal c.bytes → s.heldNodes q = [] → completes (.waitGeRelease q) s s)) ∧
    (c.stalled = false → 0 < (s.reg (queueReg q 0x40)).toNat → ∀ n, c.origin = .queue q n →
      ∃ t, completes (.waitStall q) s t ∧ t.cmds = (s.setCmd { c with stalled := true }).cmds ∧
        t.reg (queueReg q 0x48) = BitVec.ofNat 64 (waitCtr c.bytes + 65536 * n) ∧
        (t.reg (queueReg q 0x50)).toNat = waitVal c.bytes ∧ flag (t.reg (queueReg q 0x20)) 3 = true ∧ memSame s t ∧
        regsBut [queueReg q 0x20, queueReg q 0x48, queueReg q 0x50] s t) ∧
    ((s.reg (queueReg q 0x40)).toNat = 0 → completes (.waitStall q) s s)) ∧
  (∀ (s : State) (cid : Nat) (c : Cmd) (q : Fin 4096) (seq : Nat) (st : Status), s.cmd? cid = some c →
    c.origin = .queue q seq → c.phase = .done st →
    (c.abortReq = true → st = .aborted → completes (.commandComplete cid) s { s with
      cmds := s.cmds.filter (fun d => d.cid != cid) }) ∧
    (c.abortReq = false →
    (s.reg (queueReg q 0x18)).toNat + 1 = seq → seq < 2 ^ 64 → (s.queue q).ahead = [] →
    (st = .ok → ∃ t, completes (.commandComplete cid) s t ∧ t.cmds = s.cmds.filter (fun d => d.cid != cid) ∧
      (t.reg (queueReg q 0x18)).toNat = seq ∧ memSame s t ∧
      (sigEn c.bytes = false → regsBut [queueReg q 0x18] s t) ∧
      (∀ i, sigEn c.bytes = true → s.physCtr c.part (sigCtr c.bytes) = some i → s.dieLost (ctrDie i) = false →
        t.reg (ctrReg i) = s.reg (ctrReg i) + sigVal c.bytes ∧ regsBut [queueReg q 0x18, ctrReg i] s t)) ∧
    (st.isFault = true → ∃ t, completes (.commandComplete cid) s t ∧
      t.cmds = s.cmds.filter (fun d => d.cid != cid) ∧ (t.reg (queueReg q 0x18)).toNat = seq ∧
      flag (t.reg (queueReg q 0x20)) 2 = true ∧
      (flag (s.reg (queueReg q 0x20)) 2 = false → t.reg (queueReg q 0x28) = BitVec.ofNat 64 (st.code + 256 * seq)) ∧
      (t.reg (queueReg q 0x30)).toNat = min ((s.reg (queueReg q 0x30)).toNat + 1) 0xFFFFFFFF ∧ memSame s t ∧
      regsBut [queueReg q 0x18, queueReg q 0x20, queueReg q 0x28, queueReg q 0x30] s t)))

/-! ### Commands of the engines (14_host_queues.md) -/

/-- CTR_SET, REG_WRITE, MV_POST and MV_HOST (R390, R392): a counter takes its value; a register takes the bytes; a
channel's PROD and RUN are written and the command waits for CONS; one host transfer joins the channel's work with the
bytes the host answered, a transfer from the host as a request to it; a host error, or a host that cannot be reached, stops
the mover; a transfer of no bytes completes. A stopped mover, and a channel with eight in flight, leave the command where it
is. -/
def Obligations.EngineCommandsRun : Prop :=
  (∀ (s : State) (cid : Nat) (c : Cmd) (i : Nat), s.passed cid 0xC0 = some c →
    s.physCtr c.part (bytesN c.bytes 25 24) = some i → s.dieLost (ctrDie i) = false →
    ∃ t, completes (.ctrSet cid) s t ∧ t.reg (ctrReg i) = BitVec.ofNat 64 (bytesN c.bytes 39 32) ∧
      t.cmds = (s.finish cid .ok).cmds ∧ t = { s.taken c with regs := t.regs, cmds := t.cmds } ∧ regsBut [ctrReg i] s t) ∧
  (∀ (s : State) (cid : Nat) (c : Cmd), s.passed cid 0xC1 = some c → bitN (byteAt c.bytes 24) 0 = false →
    c.bytes.length = 64 → bytesN c.bytes 31 28 = 0x1001C →
    ∃ t, completes (.regWrite cid) s t ∧ field (t.reg 0x1001C) 2 0 = byteAt c.bytes 32 % 8 ∧
      t.cmds = (s.finish cid .ok).cmds ∧ t = { s.taken c with regs := t.regs, cmds := t.cmds, fab := t.fab } ∧
      regsBut [0x1001C] s t) ∧
  (∀ (s : State) (cid : Nat) (c : Cmd), s.passed cid 0x20 = some c → s.dieLost (engineDie c.engine) = false →
    let ch := c.chan
    let v := BitVec.ofNat 16 (countArg c.bytes)
    (v - s.cons ch).toNat ≤ s.ringLen ch → s.halted ch = false →
    ∃ t, completes (.mvPost cid) s t ∧ t.reg (chanReg ch 0xC) = v.setWidth 64 ∧ t.running ch = true ∧ memSame s t ∧
      regsBut [chanReg ch 0xC, chanReg ch 0x14, chanReg ch 0x18] s t ∧
      (s.cons ch = v → t.cmds = (s.finish cid .ok).cmds) ∧
      (s.cons ch ≠ v → t.cmds = (s.setCmd { c with phase := .running }).cmds ∧
        (t.chan ch).posts = (s.chan ch).posts ++ [(cid, v, .ok)])) ∧
  (∀ (s : State) (cid : Nat) (c : Cmd) (host : HostReply), s.passed cid 0x21 = some c →
    s.dieLost (engineDie c.engine) = false →
    let ch := c.chan
    let len := bytesN c.bytes 52 48
    let toDevice := !bitN (byteAt c.bytes 24) 3
    (len = 0 → completes (.mvHost cid host) s ((s.taken c).finish cid .ok)) ∧
    (0 < len → s.stopped ch = true ∨ 8 ≤ (s.chan ch).flight.length → completes (.mvHost cid host) s (s.taken c)) ∧
    (∀ bs, 0 < len → s.stopped ch = false → (s.chan ch).flight.length < 8 →
      s.hostReach (s.portOf c.part) (s.cmdFunc c) = true → host = .data bs →
      ∃ t d, completes (.mvHost cid host) s t ∧ t.cmds = (s.setCmd { c with phase := .running }).cmds ∧
        (t.chan ch).flight = insertXfer d (s.chan ch).flight ∧ d.phase = .moving ∧ d.total = len ∧
        d.host = (if toDevice then (bs ++ List.replicate (len - bs.length) 0).take len else []) ∧
        d.origin = .host cid toDevice ∧ d.id = (s.chan ch).nextId ∧ (t.chan ch).nextId = d.id + 1 ∧
        t.out = s.out ++ (if toDevice then [.hostRead (s.cmdHost c (bytesN c.bytes 39 32)) len] else []) ∧ memSame s t ∧
        regsBut [] s t) ∧
    (0 < len → s.stopped ch = false → (s.chan ch).flight.length < 8 → c.engine < 160 →
      (host = .busError ∨ s.hostReach (s.portOf c.part) (s.cmdFunc c) = false) → ∃ t, completes (.mvHost cid host) s t ∧ t.stopped ch = true ∧
      (∀ k, k < 8 → t.halted (512 + 8 * moverOf ch + k) = true) ∧ t.cmds = (s.finish cid .bus).cmds ∧ memSame s t))

/-- NET_ATOMIC and NET_SEND (R329, R330, R391): on an OPEN flow the source's bytes in near memory leave as one packet
that waits on the flow, and the command runs until the target answers; a flow that is not OPEN ends the command with
LINK_DOWN. -/
def Obligations.NetworkCommandsEnterTheirFlow : Prop :=
  ∀ (s : State) (cid : Nat) (c : Cmd) (i : Nat), s.dieLost (engineDie c.engine) = false →
    let n := countArg c.bytes % 8192
    let dst := addrAt c.bytes 40
    let fetch := bitN (byteAt c.bytes 24) 3
    let sends := fun (x : Instr) (p : Packet) (ret : Nat) => ∃ t, completes x s t ∧
      t.cmds = (s.setCmd { c with phase := .running }).cmds ∧
      (t.flow i).queue = (s.flow i).queue ++ [⟨p, false, false, false, .cmd cid, ret⟩] ∧ memSame s t ∧ regsBut [] s t
    (s.passed cid 0x31 = some c → (aperture dst).bind (s.engineFlow c.engine c.part) = some i → ∀ r,
      (if fetch then s.memAt c.part (addrAt c.bytes 48) n else some 0) = some r →
      (s.flowState i ≠ 1 → completes (.netAtomic cid) s ((s.taken c).finish cid .linkDown)) ∧
      (∀ a, s.flowState i = 1 → s.memAt c.part (addrAt c.bytes 32) n = some a → a + n ≤ 0x8000000000 → s.ecc = [] →
        (∀ k, k < n → s.reach (engineSrc c.engine).die (a + k) = .ok) →
        sends (.netAtomic cid) { s.packet i 3 (s.bytes a n) with
          raddr := dst % 2 ^ 33, afmt := byteAt c.bytes 24 % 8, fetch := fetch } r)) ∧
    (s.passed cid 0x32 = some c → s.engineFlow c.engine c.part (bytesN c.bytes 43 40 % 2 ^ 18) = some i →
      (s.flowState i ≠ 1 → completes (.netSend cid) s ((s.taken c).finish cid .linkDown)) ∧
      (∀ a, s.flowState i = 1 → s.memAt c.part (addrAt c.bytes 32) n = some a → a + n ≤ 0x8000000000 → s.ecc = [] →
        (∀ k, k < n → s.reach (engineSrc c.engine).die (a + k) = .ok) →
        sends (.netSend cid) (s.packet i 5 (s.bytes a n)) 0))

/-! ### Stored graphs (14_host_queues.md) -/

/-- GRAPH_DEFINE, GRAPH_PATCH, GRAPH_COMMIT and GRAPH_DELETE (R399, R401, R402, R405): a well-formed definition is the
graph's pending version and sets the owner of a graph that had none; a malformed one is dropped with FORMAT; a patch
changes the command of the node it names and no other; a commit makes the pending version the current one under the
next number; a deletion leaves neither. Another function's command is dropped with PRIV. -/
def Obligations.GraphsAreEdited : Prop :=
  (∀ (s : State) (cid : Nat) (c : Cmd) (g : Nat) (recs : List (List Byte)), s.managed cid 0x40 c g →
    s.recordsAt c recs → (∀ v ∈ s.versions, v.pending = true → v.current = false) →
    let nodes := recs.zipIdx.map fun (r, i) => nodeOf r (s.nextSlot + i)
    let kernel := if s.graphOwned g then s.graphKernel g else c.kernel
    let good := !recs.any nodeReserved && nodes.all (fun n => s.nodeCmdOk c.part kernel n.target n.bytes) && edgesOk nodes
    (good = true → nodes.length ≤ s.freeNodes (graphDie g) → ∃ t v, completes (.graphDefine cid) s t ∧
      t.pending? g = some v ∧ v.nodes = nodes ∧ t.current? g = s.current? g ∧ t.cmds = (s.finish cid .ok).cmds ∧
      memSame s t ∧ regsBut [graphReg g] s t ∧
      (s.graphOwned g = true → t.reg (graphReg g) = s.reg (graphReg g)) ∧
      (s.graphOwned g = false → t.graphKernel g = c.kernel ∧ t.graphFunc g = s.cmdFunc c % 32)) ∧
    (good = false → ∃ t, completes (.graphDefine cid) s t ∧ t.cmds = (s.dropCmd c .format).cmds ∧
      t.versions = s.versions ∧ memSame s t ∧ regsBut [] (s.dropCmd c .format) t)) ∧
  (∀ (s : State) (cid : Nat) (c : Cmd) (g : Nat) (r : List Byte) (v : Version) (n : Node), s.managed cid 0x41 c g →
    s.recordsAt c [r] → firstSome (s.pending? g) (s.current? g) = some v → v.nodes[bytesN r 15 0]? = some n →
    bytesN r 63 16 = 0 → s.nodeCmdOk c.part (s.graphKernel g) n.target ((r.drop 64).take 64) = true →
    1 ≤ s.freeNodes (graphDie g) → (∀ v ∈ s.versions, v.pending = true → v.current = false) →
    ∃ t w, completes (.graphPatch cid) s t ∧ t.pending? g = some w ∧
      t.current? g = s.current? g ∧ w.nodes.length = v.nodes.length ∧ t.cmds = (s.finish cid .ok).cmds ∧ memSame s t ∧
      regsBut [] s t ∧ ∀ k, (w.nodes[k]?).map Node.shape =
        if k = bytesN r 15 0 then some ((r.drop 64).take 64, n.target, n.npred, n.succ)
        else (v.nodes[k]?).map Node.shape) ∧
  (∀ (s : State) (cid : Nat) (c : Cmd) (g : Nat), s.managed cid 0x42 c g →
    (s.pending? g = none → completes (.graphCommit cid) s ((s.taken c).finish cid .ok)) ∧
    (∀ v, s.pending? g = some v →
      (s.versions.filter fun w => w.graph == g && !w.pending && decide (0 < w.launches)).length < 8 →
      let n := tget (fun _ => 0) s.graphNo g + 1
      ∃ t, completes (.graphCommit cid) s t ∧ t.pending? g = none ∧
        t.current? g = some { v with pending := false, current := true, number := n } ∧
        tget (fun _ => 0) t.graphNo g = n ∧ t.cmds = (s.finish cid .ok).cmds ∧ memSame s t ∧ regsBut [] s t)) ∧
  (∀ (s : State) (cid : Nat) (c : Cmd) (g : Nat), s.managed cid 0x44 c g → ∃ t, completes (.graphDelete cid) s t ∧
    t.pending? g = none ∧ t.current? g = none ∧ t.cmds = (s.finish cid .ok).cmds ∧ memSame s t ∧ regsBut [] s t ∧
    ∀ h, h ≠ g → t.pending? h = s.pending? h ∧ t.current? h = s.current? h) ∧
  (∀ (s : State) (cid : Nat) (c : Cmd) (g : Nat), s.dieLost (engineDie c.engine) = false →
    s.physGraph c.engine c.part (graphArg c.bytes) = some g → c.kernel = false → s.graphOwned g = true →
    s.graphFunc g ≠ s.cmdFunc c → ∀ x ∈ [(0x40, Instr.graphDefine cid), (0x41, .graphPatch cid), (0x42, .graphCommit cid),
      (0x43, .graphLaunch cid), (0x44, .graphDelete cid)], s.passed cid x.1 = some c →
      completes x.2 s ((s.taken c).dropCmd c .priv))

/-- GRAPH_LAUNCH and GRAPH_NODE_COMPLETE (R403): a launch of a graph of one ready node posts that node to its target
and goes on; one of an empty graph completes; a graph with no current version is dropped with FORMAT. A node's
completion releases the successor that waited for it last; a failed node's successors complete ABORTED; the last node
completes the launch with the first status of R14. -/
def Obligations.GraphsRun : Prop :=
  (∀ (s : State) (cid : Nat) (c : Cmd) (g : Nat), s.managed cid 0x43 c g →
    (s.current? g = none → completes (.graphLaunch cid) s ((s.taken c).dropCmd c .format)) ∧
    (∀ v, s.current? g = some v → (s.dieLaunches (graphDie g)).length < 256 → v.nodes.length ≤ s.freePend (graphDie g) →
      s.glaunch? cid = none →
      (v.nodes = [] → ∃ t, completes (.graphLaunch cid) s t ∧
        t.cmds = ((s.setCmd { c with phase := .running }).finish cid .ok).cmds ∧ t.glaunches = s.glaunches ∧
        memSame s t ∧ regsBut [] s t) ∧
      (∀ x e, v.nodes = [x] → x.npred = 0 → waitEn x.bytes = false → s.physEngine (s.graphPart g) x.target = some e →
        s.contained = false → s.pathLost (engineDie c.engine) (engineDie e) = false →
        (∀ d ∈ s.cmds, d.isNode = false ∧ d.cid < s.nextCid) → ∃ t l k, completes (.graphLaunch cid) s t ∧
          t.cmds = (s.setCmd { c with phase := .running }).cmds ++ [k] ∧ k.bytes = x.bytes ∧ k.engine = e ∧
          k.origin = .node cid 0 ∧ k.phase = .passed ∧ k.kernel = s.graphKernel g ∧
          t.glaunches = s.glaunches ++ [l] ∧ l.id = cid ∧ l.version = v ∧ l.phase = [.posted] ∧ memSame s t ∧
          regsBut [] s t))) ∧
  (∀ (s : State) (cid id n : Nat) (c : Cmd) (st : Status) (g : GLaunch) (x : Node), s.cmd? cid = some c →
    c.origin = .node id n → c.phase = .done st → s.glaunch? id = some g → g.version.nodes[n]? = some x →
    g.phase.length = g.version.nodes.length → g.rem.length = g.version.nodes.length →
    ((∀ k p, k ≠ n → g.phase[k]? = some p → ∃ y, p = .done y) → ∃ t, completes (.graphNodeComplete cid) s t ∧
      t.glaunches = s.glaunches.filter (fun h => h.id != id) ∧ memSame s t ∧
      t.cmds = ((s.removeCmd cid).finish g.cid { g with phase := listSet g.phase n (.done st) }.status).cmds) ∧
    (∀ m y e, st.signals = true → x.succ = [m] → m ≠ n → g.rem[m]? = some 1 → g.phase[m]? = some .unreleased →
      g.version.nodes[m]? = some y → waitEn y.bytes = true →
      s.physEngine (s.graphPart g.version.graph) y.target = some e → ∃ t h k, completes (.graphNodeComplete cid) s t ∧
        t.cmds = (s.removeCmd cid).cmds ++ [k] ∧ k.bytes = y.bytes ∧ k.engine = e ∧ k.origin = .node id m ∧
        k.phase = .waiting ∧ t.glaunch? id = some h ∧ h.phase[n]? = some (.done st) ∧ h.phase[m]? = some .held ∧
        h.rem[m]? = some 0 ∧ memSame s t) ∧
    (∀ m k, st.signals = false → x.succ = [m] → m ≠ n → k ≠ n → g.phase[m]? = some .unreleased →
      g.phase[k]? = some .posted → ∃ t h, completes (.graphNodeComplete cid) s t ∧ t.cmds = (s.removeCmd cid).cmds ∧
        t.glaunch? id = some h ∧ h.phase[n]? = some (.done st) ∧ h.phase[m]? = some (.done .aborted) ∧
        h.phase[k]? = some .posted ∧ memSame s t ∧ regsBut [] s t))

/-! ### Mailboxes and the secure monitor (15_mailboxes_security.md) -/

/-- H2D_DATA_WRITE, H2D_ACK, D2H_DATA_WRITE and D2H_ACK (R412, R414, R415, R417, R418): a message enters an empty
channel; one that finds it full is dropped as an overrun with a Completer Abort, which AER records and, where the PF has it
enabled, signals with ERR_NONFATAL; an acknowledgement empties a full
channel and leaves its code, and does nothing to an empty one; the device's write to a full channel changes nothing.
-/
def Obligations.MailboxesCarryMessages : Prop :=
  ∀ (s : State) (p : Fin 2) (v : BitVec 32) (code : BitVec 16),
    (∀ ch : Fin 16, s.bar4Serves p = true →
      let m := s.mail 0 p ch
      let d := s.mail 1 p ch
      (m.isFull = false → ∃ t, completes (.h2dDataWrite p ch v) s t ∧ t.mail 0 p ch = { m with data := v, isFull := true } ∧
        t.secure = s.secure ++ (if 8 ≤ ch.val then [(p, ch)] else []) ∧ t.out = s.out ∧ memSame s t ∧ regsBut [] s t) ∧
      (m.isFull = true → ∃ t, completes (.h2dDataWrite p ch v) s t ∧ t.mail 0 p ch = { m with overrun := true } ∧
        (t.mboxReg p 2).toNat = min ((s.mboxReg p 2).toNat + 1) 0xFFFFFFFF ∧ .completerAbort p ∈ t.out ∧
        (t.port p).aerAbort.toNat.testBit 0 = true ∧
        ((s.port p).aerEn.toNat.testBit 0 = true → .errNonfatal p 0 ∈ t.out) ∧
        t.secure = s.secure ∧ memSame s t ∧ regsBut [] s t) ∧
      (d.isFull = false → completes (.d2hAck p ch code) s s) ∧
      (d.isFull = true → ch.val ≠ 8 ∨ (∀ e ∈ s.d2hHeld, e.1 ≠ p) → ∃ t, completes (.d2hAck p ch code) s t ∧
        t.mail 1 p ch = { d with isFull := false, acked := true, code := code } ∧ t.out = s.out ∧ memSame s t ∧
        regsBut [] s t)) ∧
    (∀ ch : Fin 8,
      let m := s.mail 0 p ch
      let d := s.mail 1 p ch
      (m.isFull = false → completes (.h2dAck p ch code) s s) ∧
      (m.isFull = true → ∃ t, completes (.h2dAck p ch code) s t ∧
        t.mail 0 p ch = { m with isFull := false, acked := true, code := code } ∧ memSame s t ∧ regsBut [] s t ∧
        ((s.mboxReg p 0).toNat.testBit ch = false → t.out = s.out)) ∧
      (d.isFull = true → completes (.d2hDataWrite p ch v) s s) ∧
      (d.isFull = false → ∃ t, completes (.d2hDataWrite p ch v) s t ∧
        t.mail 1 p ch = { d with data := v, isFull := true } ∧ memSame s t ∧ regsBut [] s t ∧
        ((s.mboxReg p 0).toNat.testBit (16 + ch) = false → t.out = s.out))) ∧
    (s.bar4Serves p = false → ∀ ch : Fin 16, completes (.h2dDataWrite p ch v) s s ∧ completes (.d2hAck p ch code) s s)

/-- FW_UPDATE, ATTEST and CERT (R420, R422, R423, R426 to R428): a sealed firmware image of a sufficient SVN is in the
slot with VALID set; one whose signature fails is refused with FORMAT, one of an older SVN too; a flash that fails
leaves the slot without VALID. A report carries the nonce and its signature and uses up one index; the certificate is
written to the buffer. RCV_LOAD, RCV_COMMIT and SKETCH_REGION_WRITE (R422, R424, R425, R433): in recovery mode the
host's bytes go into the firmware slot, which the first load erases; a commit makes an image that passes its checks
valid. A sketch image that passes its checks is stored; any other changes nothing. -/
def Obligations.SecureServicesAnswer : Prop :=
  ((∀ (s : State) (p : Fin 2) (ch : Fin 16) (arg a : Nat) (flashOk : Bool), s.secureFront p ch 0x01 arg →
     let n := imgTotal (s.bytes a 64)
     let img := s.bytes a n
     s.bufferAt p arg 0 64 a → s.bufferAt p arg 0 n a → imgShape (s.bytes a 64) 1 fwSlot = true →
     ∃ t, completes (.fwUpdate flashOk) s t ∧ memSame s t ∧ regsBut [] s t ∧
       (imgSealed img = false → s.answered t p ch .format 2 ∧ t.flash = s.flash) ∧
       (imgSealed img = true → imgSvn img < s.flash.fwSvnMin → s.answered t p ch .format 4 ∧ t.flash = s.flash) ∧
       (imgSealed img = true → s.flash.fwSvnMin ≤ imgSvn img →
         (flashOk = true → s.answered t p ch .ok 0 ∧ t.flash = { s.flash with fwImage := img, fwValid := true }) ∧
         (flashOk = false → s.answered t p ch .bus 6 ∧ t.flash = { s.flash with fwImage := [], fwValid := false }))) ∧
   (∀ (s : State) (p : Fin 2) (ch : Fin 16) (arg a b : Nat) (flashOk : Bool), s.secureFront p ch 0x02 arg →
     s.bufferAt p arg 0 32 a → s.bufferAt p arg 64 10405 b → s.unheld b 10405 →
     (s.flash.sigIndex < 2 ^ 40 → flashOk = true →
       let body := s.reportBody (s.bytes a 32)
       ∃ t, completes (.attest flashOk) s t ∧ s.answered t p ch .ok 0 ∧
         t.flash = { s.flash with sigIndex := s.flash.sigIndex + 1 } ∧
         t.bytes b 10405 = body ++ sized 9893 (Config.identitySign s.flash.sigIndex body) ∧ memBut b 10405 s t ∧
         regsBut [] s t) ∧
     (s.flash.sigIndex < 2 ^ 40 → flashOk = false → ∃ t, completes (.attest flashOk) s t ∧ s.answered t p ch .bus 6 ∧
       t.flash = s.flash ∧ memSame s t) ∧
     (2 ^ 40 ≤ s.flash.sigIndex → ∃ t, completes (.attest flashOk) s t ∧ s.answered t p ch .bounds 5 ∧
       t.flash = s.flash ∧ memSame s t)) ∧
   (∀ (s : State) (p : Fin 2) (ch : Fin 16) (arg b : Nat), s.secureFront p ch 0x03 arg →
     s.bufferAt p arg 64 certificate.length b → s.unheld b certificate.length → ∃ t, completes .cert s t ∧ s.answered t p ch .ok 0 ∧
       t.bytes b certificate.length = certificate ∧ memBut b certificate.length s t ∧ t.flash = s.flash ∧ regsBut [] s t)) ∧
  ((∀ (s : State) (cid : Nat) (c : Cmd), s.recoveryCmd cid 0xE0 = some c →
     let off := bytesN c.bytes 43 40
     let n := bytesN c.bytes 47 44
     let old := if s.rcvErased then s.flash.fwImage else []
     (fwSlot < off + n → ∀ host ok, completes (.rcvLoad cid host ok) s (s.finish cid .bounds)) ∧
     (∀ bs, off + n ≤ fwSlot → bs.length = n →
       s.hostReach (if (s.port 0).released then 0 else 1) (s.cmdFunc c) = true →
       ∃ t, completes (.rcvLoad cid (.data bs) true) s t ∧ t.out = s.out ++ [.hostRead (s.hostReq (s.cmdQueue cid)
         (if (s.port 0).released then 0 else 1) (s.cmdFunc c) (bytesN c.bytes 39 32)) n] ∧ t.cmds = (s.finish cid .ok).cmds ∧ t.rcvErased = true ∧
         t.flash = { s.flash with fwImage := patchAt old off bs, fwValid := false } ∧ memSame s t ∧ regsBut [] s t) ∧
     (off + n ≤ fwSlot → ∀ ok, ∃ t, completes (.rcvLoad cid .busError ok) s t ∧ t.cmds = (s.finish cid .bus).cmds ∧
       t.flash = s.flash ∧ memSame s t ∧ regsBut [] s t) ∧
     (off + n ≤ fwSlot → s.hostReach (if (s.port 0).released then 0 else 1) (s.cmdFunc c) = false →
       ∀ host ok, completes (.rcvLoad cid host ok) s (s.finish cid .bus))) ∧
   (∀ (s : State) (cid : Nat) (c : Cmd), s.recoveryCmd cid 0xE1 = some c →
     let good := imgOk s.flash.fwImage 1 fwSlot && decide (s.flash.fwSvnMin ≤ imgSvn s.flash.fwImage)
     ∃ t, completes (.rcvCommit cid) s t ∧ t.cmds = (s.finish cid (if good then .ok else .format)).cmds ∧
       t.flash = (if good then { s.flash with fwValid := true } else s.flash) ∧ memSame s t ∧ regsBut [] s t) ∧
   (∀ (s : State) (i : Image), s.mode ≠ .off →
     (imgOk i 2 sketchRegion = true → s.flash.sketchSvnMin ≤ imgSvn i → ∃ t, completes (.sketchRegionWrite i) s t ∧
       t.flash.sketchImage = i.take (imgTotal i) ∧ t.flash.sketch = sketchOf (imgBody i) ∧
       t.flash.sketchSvn = imgSvn i ∧ t = { s with flash := t.flash }) ∧
     (imgOk i 2 sketchRegion = false ∨ imgSvn i < s.flash.sketchSvnMin → completes (.sketchRegionWrite i) s s)))

/-! ### Start-up and resets (16_startup_reset.md) -/

/-- COLD_START and FULL_RESET (R18, R33, R437 to R439, R441, R465): a start in which nothing fails, with valid firmware and
a legal sketch, ends in service at stage RELEASE with the tiles numbered over the enabled physical ones (R18), the sketch's
modes, near memory and scratchpads empty (log 2),
far memory kept, and every tile of the retirement list retired; without valid firmware it ends in recovery mode, and
with a sketch that breaks a rule it halts with CAUSE 3. A full reset that is not on its way does nothing. -/
def Obligations.StartUpReleases : Prop :=
  ∀ (s : State) (inp : StartInputs) (x : Instr), cleanStart inp →
    (x = .coldStart inp ∧ s.mode = .off) ∨ (x = .fullReset inp ∧ s.resetDue.isSome = true) →
    let good := s.flash.fwValid && inp.fwGood
    let k := s.flash.sketch
    (good = true → inp.sketchGood = true → sketchOk k = true → ∃ t, completes x s t ∧ t.mode = .running ∧
      field (t.reg 0x40) 3 0 = 10 ∧ flag (t.reg 0x40) 4 = true ∧ t.split = k.partition ∧ t.dieLocal = k.interleave ∧
      t.tileMap = ([0, 1].flatMap fun d => ((List.range 136).filter fun n =>
        n / 68 == d && Config.tileEnable.toNat.testBit n).take 64) ∧
      (∀ a, t.byte a = if 0x100000000000 ≤ a ∧ a < 0x200000000000 then s.byte a else 0) ∧
      (∀ n, n < 25 → k.domainEn.toNat.testBit n = true → flag (t.reg 0x20000) n = true) ∧
      t.flash = { s.flash with
        bootCount := s.flash.bootCount + 1
        fwSvnMin := max s.flash.fwSvnMin (imgSvn s.flash.fwImage)
        sketchSvnMin := max s.flash.sketchSvnMin s.flash.sketchSvn } ∧
      (∀ n ∈ s.flash.retired, n < 128 → t.retired n = true) ∧ t.pending = s.pending ∧ t.cmds = [] ∧
      (x = .coldStart inp → t.reg 0x10 = 0) ∧ (x = .fullReset inp → t.reg 0x10 = s.reg 0x10)) ∧
    (good = false → ∃ t, completes x s t ∧ t.mode = .recovery ∧ field (t.reg 0x40) 3 0 = 4 ∧
      flag (t.reg 0x40) 6 = true) ∧
    (good = true → inp.sketchGood = true → sketchOk k = false → ∃ t, completes x s t ∧ t.mode = .halted ∧
      field (t.reg 0x40) 3 0 = 5 ∧ flag (t.reg 0x40) 5 = true ∧ field (t.reg 0x40) 15 8 = 3) ∧
    (∀ u : State, u.resetDue = none → completes (.fullReset inp) u u)

/-- FULL, SMBUS_RESET, WATCHDOG_UPDATE, WATCHDOG_EXPIRY, TRIP_RESTART and ALWAYS_ON_DOMAIN_LOSS (R441 to R444): each
puts a full reset on its way where its conditions hold, the watchdog's with WDOG; in Split mode a partition's FULL is
noted and waits for the other's; without the always-on domain nothing runs and only flash and far memory stay.
PORT_RELEASE, PERST, PERST_DEASSERTION, HOT_RESET and DIE_GO (R439, R440, R445 to R447, R451): a port whose reset is
deasserted trains and releases once it may; a reset takes it down, and its functions with it; a lost die is shown, its
seams are fenced, and the tiles of a lost compute die are gone. -/
def Obligations.ResetsPortsAndDies : Prop :=
  ((∀ s : State, s.resetDue = none →
     (∀ path part, s.resetBy path = some part → (s.mode ≠ .running ∨ s.split = false) →
       completes (.full path) s { s with resetDue := some false }) ∧
     (∀ path part, s.resetBy path = some part → part < 2 → s.mode = .running → s.split = true →
       (∀ q, q < 2 → s.partAlive q = true) → ∃ t, completes (.full path) s t ∧ flag (t.reg 0x4C) (9 + part) = true ∧
         (flag (s.reg 0x4C) (10 - part) = true → t.resetDue = some false) ∧
         (flag (s.reg 0x4C) (10 - part) = false → t.resetDue = none) ∧ regsBut [0x4C] s t ∧ memSame s t) ∧
     (s.powered = true → completes .smbusReset s { s with resetDue := some false }) ∧
     (s.powered = true → s.watchdog = true → flag (s.reg 0x30030) 0 = true → s.dieLost 2 = false → s.dieLost 3 = false →
       completes .watchdogExpiry s { s with resetDue := some true }) ∧
     (s.mode = .tripped → s.alwaysOn = true → completes .tripRestart s { s with resetDue := some false })) ∧
   (∀ s : State, completes .watchdogUpdate s s ∧ (∀ path, s.resetBy path = none → completes (.full path) s s) ∧
     (s.powered = false → completes .smbusReset s s) ∧ (s.watchdog = false → completes .watchdogExpiry s s) ∧
     (s.mode ≠ .tripped → completes .tripRestart s s) ∧
     ∃ t, completes .alwaysOnDomainLoss s t ∧ t.mode = .off ∧ t.alwaysOn = false ∧ t.flash = s.flash ∧ t.cmds = [] ∧
       t.tiles = [] ∧ t.fwRunning = [] ∧ t.pending = s.pending ∧
       ∀ a, t.byte a = if 0x100000000000 ≤ a ∧ a < 0x200000000000 then s.byte a else 0)) ∧
  ((∀ (s : State) (p : Fin 2),
     (s.mayRelease p = true → (s.port p).perst = false → (s.port p).released = false →
       completes (.portRelease p) s (s.setPort p { s.port p with linkUp := true, released := true })) ∧
     (s.mayRelease p = false ∨ (s.port p).perst = true ∨ (s.port p).released = true → completes (.portRelease p) s s) ∧
     completes (.perstDeassertion p) s (s.setPort p { s.port p with perst := false }) ∧
     (∃ t, completes (.perst p) s t ∧ t.port p = { HostPort.reset with perst := true } ∧
       ∀ f v half, f < 32 → v < 64 → half < 2 → tget msixReset t.msix (msixKey p f v half) = msixReset half) ∧
     ((s.port p).linkUp = true → ∃ t, completes (.hotReset p) s t ∧
       t.port p = { HostPort.reset with perst := (s.port p).perst } ∧
       ∀ f v half, f < 32 → v < 64 → half < 2 → tget msixReset t.msix (msixKey p f v half) = msixReset half) ∧
     ((s.port p).linkUp = false → completes (.hotReset p) s s)) ∧
   (∀ (s : State) (p : Fin 2) (fn : Fin 32) (die : Die), s.resetPath (.bar0 p fn) = true →
     (s.split = false ∨ dieNum die % 2 = p.val) → s.dieLost (dieNum die) = false →
     ∃ t, completes (.dieGo (.bar0 p fn) die) s t ∧ t.dieState (dieNum die) = 1 ∧
       (∀ i ∈ dieSeams (dieNum die), flag (t.reg (seamReg i 0)) 1 = true) ∧
       (∀ x, tileDie x = dieNum die → dieNum die < 2 → t.tile x = Tile.reset) ∧ memSame s t) ∧
   (∀ (s : State) (path : Path) (die : Die), s.resetPath path = false → completes (.dieGo path die) s s))

/-! ### Checking and test (17_checking_and_test.md) -/

/-- PP_STORE, PP_LIST, PP_ERASE, PP_RUN and PP_ABORT (R467 to R470, R473): a sealed pack is in its slot, an unsealed
one is refused; the slot table and the retirement list are written to the buffer; an erased slot holds no pack; a run
of a sealed pack on targets of its partition starts and holds its tiles; an abort ends a run at its next group
boundary. -/
def Obligations.ProofPacksAreServed : Prop :=
  (∀ (s : State) (p : Fin 2) (ch : Fin 16) (arg a b : Nat) (flashOk : Bool), s.secureFront p ch 0x10 arg →
    let n := imgTotal (s.bytes b 64)
    let img := s.bytes b n
    let k := byteAt (s.bytes a 64) 0
    s.bufferAt p arg 0 64 a → s.bufferAt p arg 64 64 b → s.bufferAt p arg 64 n b →
    imgShape (s.bytes b 64) 3 packSlot = true → k < 123 → s.slotBusy k = false →
    ∃ t, completes (.ppStore flashOk) s t ∧ memSame s t ∧ regsBut [] s t ∧
      (imgSealed img = false → s.answered t p ch .format 2 ∧ t.flash = s.flash) ∧
      (imgSealed img = true → flashOk = true → s.answered t p ch .ok 0 ∧
        t.packSlot? k = some ⟨byteAt (imgBody img) 2, BitVec.ofNat 32 (bytesN (imgBody img) 7 4), img⟩ ∧
        ∀ j, j ≠ k → t.packSlot? j = s.packSlot? j)) ∧
  (∀ (s : State) (p : Fin 2) (ch : Fin 16) (arg b : Nat), s.secureFront p ch 0x13 arg →
    s.bufferAt p arg 64 s.packList.length b → s.unheld b s.packList.length → ∃ t, completes .ppList s t ∧ s.answered t p ch .ok 0 ∧
      t.bytes b s.packList.length = s.packList ∧ memBut b s.packList.length s t ∧ t.flash = s.flash ∧ regsBut [] s t) ∧
  (∀ (s : State) (p : Fin 2) (ch : Fin 16) (k : Nat), s.secureFront p ch 0x14 k → k < 123 → s.slotBusy k = false →
    (s.packSlot? k = none → ∀ ok, ∃ t, completes (.ppErase ok) s t ∧ s.answered t p ch .bounds 9 ∧ t.flash = s.flash) ∧
    ((s.packSlot? k).isSome = true → ∃ t, completes (.ppErase true) s t ∧ s.answered t p ch .ok 0 ∧
      t.packSlot? k = none ∧ (∀ j, j ≠ k → t.packSlot? j = s.packSlot? j) ∧ memSame s t ∧ regsBut [] s t)) ∧
  (∀ (s : State) (p : Fin 2) (ch : Fin 16) (arg a : Nat) (x : PackSlot), s.secureFront p ch 0x11 arg →
    let h := s.bytes a 32
    let ts := (List.range 128).filter fun t => bitN (bytesN h 31 16) t
    s.bufferAt p arg 0 32 a → byteAt h 0 < 123 → s.ppRun = none → flag (s.reg 0xA0010) 0 = false →
    s.packSlot? (byteAt h 0) = some x → imgShape x.image 3 packSlot = true → x.kind ≤ 3 →
    (x.kind = 0 ↔ s.mode = .running) → (∀ t ∈ ts, s.targetIn x.kind (s.portPart p) t = true) →
    ∃ t, completes .ppRun s t ∧ memSame s t ∧
      (imgSealed x.image = false → s.answered t p ch .format 2 ∧ t.ppRun = none) ∧
      (imgSealed x.image = true → s.answered t p ch .ok 0 ∧ flag (t.reg 0xA0010) 1 = true ∧
        (∃ r, t.ppRun = some r ∧ r.targets = ts ∧ r.slot = byteAt h 0 ∧ r.kind = x.kind ∧ r.tested = [] ∧ r.ends = none) ∧
        ∀ n, (t.tile n).ppHold = ((s.tile n).ppHold || (decide (x.kind = 0) && ts.contains n)))) ∧
  (∀ (s : State) (p : Fin 2) (ch : Fin 16) (arg : Nat), s.secureFront p ch 0x12 arg → ∃ t, completes .ppAbort s t ∧
    s.answered t p ch .ok 0 ∧ memSame s t ∧ regsBut [] s t ∧
    t.ppRun = s.ppRun.map fun (r : PpRunSt) => { r with ends := firstSome r.ends (some .aborted) })

/-- PP_TARGET_READY, PP_GROUP_SCAN, EXTERNAL_PORT_OWN, EXTERNAL_PORT_RELEASE, RETIRE and RETIREMENT (R464, R466, R470,
R471): a held tile becomes ready or, after its time, is skipped and released; a group's targets are tested, and its
tiles reset and released; a run that has been ended writes no further group and is over; the external port's ownership
ends a run; a tile asked to retire does so once it is quiet. -/
def Obligations.TestsAndRetirement : Prop :=
  (∀ (s : State) (n : TileId) (r : PpRunSt) (late : Bool), s.ppRun = some r → n.val ∈ r.targets → n.val ∉ r.ready →
    n.val ∉ r.skipped →
    (s.targetReady n = true → completes (.ppTargetReady n late) s { s with ppRun := some { r with
      ready := r.ready ++ [n.val] } }) ∧
    (s.targetReady n = false → late = false → completes (.ppTargetReady n late) s s) ∧
    (s.targetReady n = false → late = true → ∃ t, completes (.ppTargetReady n late) s t ∧
      t.ppRun = some { r with skipped := r.skipped ++ [n.val] } ∧ (t.tile n).ppHold = false ∧
      t = { s with ppRun := t.ppRun, tiles := t.tiles } ∧ ∀ k, k ≠ n.val → t.tile k = s.tile k)) ∧
  (∀ (s : State) (r : PpRunSt) (passed : BitVec 128) (rows : List TileId) (ms : Nat), s.ppRun = some r →
    let group := (r.targets.filter fun t => r.ready.contains t && !r.tested.contains t).take 8
    (r.ends = none → (∃ y ∈ r.targets, y ∉ r.tested ∧ y ∉ r.skipped ∧ y ∉ group) →
      ∃ t q, completes (.ppGroupScan passed rows ms) s t ∧ t.ppRun = some q ∧ q.tested = r.tested ++ group ∧
        q.failed = r.failed ++ group.filter (fun n => !passed.toNat.testBit n) ∧
        ∀ n ∈ group, r.kind = 0 → (t.tile n).ppHold = false ∧
          (∀ b, b < spSize → t.byte (spBase n + b) = 0) ∧
          (n < 128 → r.retireOnFail = true → passed.toNat.testBit n = false → t.retired n = true ∧
            n ∈ t.flash.retired)) ∧
    (∀ st, r.ends = some st → ∃ t rec, completes (.ppGroupScan passed rows ms) s t ∧ t.ppRun = none ∧
      t.flash.results.getLast? = some rec ∧ byteAt rec 0 = st.code % 256 ∧ byteAt rec 2 = r.slot % 256 ∧
      flag (t.reg 0xA0010) 1 = false ∧ (t.reg 0xA0014).toNat = min ((s.reg 0xA0014).toNat + 1) 0xFFFFFFFF)) ∧
  (∀ s : State, (∃ t, completes .externalPortOwn s t ∧ flag (t.reg 0xA0010) 0 = true ∧ regsBut [0xA0010] s t ∧
      t.ppRun = (s.ppRun.map fun (r : PpRunSt) => { r with ends := firstSome r.ends (some .aborted) }) ∧ memSame s t) ∧
    ∃ t, completes .externalPortRelease s t ∧ flag (t.reg 0xA0010) 0 = false ∧ onlyRegs [0xA0010] s t) ∧
  (∀ (s : State) (path : Path) (n : TileId) (o : Nat), s.kernelOff path (tileBase n + 0x400C) = some o →
    let k := (o - 0x1000000) / 0x10000
    ∃ t, completes (.retire path n) s t ∧ t.tile k = { s.tile k with retireReq := true } ∧ onlyTile k s t) ∧
  (∀ (s : State) (n : TileId), (s.tile n).retireReq = true → s.retired n = false → (s.tile n).quiet = true →
    s.tileOn n = true → ∃ t, completes (.retirement n) s t ∧ t.retired n = true ∧ n.val ∈ t.flash.retired ∧
      (t.tile n).launches = [] ∧ (∀ c ∈ t.cmds, c.cid ∈ (s.tile n).launches → ∃ st, c.phase = .done st) ∧
      (∀ i, i < 4 → t.running (4 * n + i) = false) ∧ memSame s t)
end

