-- ==== Sys2Proof/Laws/Bits.lean ====
section
/-! SUPPORT. What the bit-field helpers do: every field of a register after one of its fields is written. -/
namespace Sys2Proof.Machine

theorem bitsN_testBit (v hi lo n : Nat) : (bitsN v hi lo).testBit n = (decide (n < hi + 1 - lo) && v.testBit (lo + n)) := by
  simp [bitsN, Nat.testBit_mod_two_pow, Nat.testBit_shiftRight]

theorem flag_eq_getLsbD (w : Word) (n : Nat) : flag w n = w.getLsbD n := by
  simp [flag, BitVec.getLsbD]

/-- Every bit of a register after one field is written. -/
theorem flag_putField (w : Word) (hi lo v n : Nat) (h : hi < 64) :
    flag (putField w hi lo v) n = if lo ≤ n ∧ n ≤ hi then v.testBit (n - lo) else flag w n := by
  simp only [flag_eq_getLsbD, putField, BitVec.getLsbD_or, BitVec.getLsbD_and, BitVec.getLsbD_not,
    BitVec.getLsbD_shiftLeft, BitVec.getLsbD_ofNat, Nat.testBit_mod_two_pow, Nat.testBit_two_pow_sub_one]
  by_cases hn : n < 64
  · by_cases h1 : lo ≤ n
    · by_cases h2 : n ≤ hi
      · have e1 : n - lo < hi + 1 - lo := by omega
        have e2 : n - lo < 64 := by omega
        simp [hn, h1, h2, e1, e2, Nat.not_lt.mpr h1]
      · have e1 : ¬ n - lo < hi + 1 - lo := by omega
        simp [hn, h1, h2, e1, Nat.not_lt.mpr h1]
    · have h3 : n < lo := by omega
      simp [hn, h1, h3]
  · have h2 : ¬ n ≤ hi := by omega
    have h3 : w.getLsbD n = false := BitVec.getLsbD_of_ge w n (by omega)
    simp [hn, h2, h3]

/-- One bit after another is written. -/
theorem flag_putFlag (w : Word) (m n : Nat) (b : Bool) (h : m < 64) :
    flag (putFlag w m b) n = if n = m then b else flag w n := by
  unfold putFlag
  rw [flag_putField w m m _ n h]
  by_cases e : n = m
  · subst e; cases b <;> simp
  · rw [if_neg (by omega), if_neg e]

/-- A field just written reads as its value, cut to the field's width. -/
theorem field_putField_same (w : Word) (hi lo v : Nat) (h : hi < 64) :
    field (putField w hi lo v) hi lo = v % 2 ^ (hi + 1 - lo) := by
  apply Nat.eq_of_testBit_eq
  intro n
  rw [field, bitsN_testBit, Nat.testBit_mod_two_pow]
  by_cases hn : n < hi + 1 - lo
  · have := flag_putField w hi lo v (lo + n) h
    unfold flag at this
    rw [this, if_pos (by omega)]
    simp [hn]
  · simp [hn]

/-- A field reads as before a write of a field that it shares no bit with. -/
theorem field_putField_disjoint (w : Word) (hi lo v hi' lo' : Nat) (h : hi < 64) (hd : hi' < lo ∨ hi < lo') :
    field (putField w hi lo v) hi' lo' = field w hi' lo' := by
  apply Nat.eq_of_testBit_eq
  intro n
  rw [field, field, bitsN_testBit, bitsN_testBit]
  by_cases hn : n < hi' + 1 - lo'
  · have := flag_putField w hi lo v (lo' + n) h
    unfold flag at this
    rw [this, if_neg (by omega)]
  · simp [hn]

theorem field_putFlag_disjoint (w : Word) (m hi lo : Nat) (b : Bool) (h : m < 64) (hd : hi < m ∨ m < lo) :
    field (putFlag w m b) hi lo = field w hi lo := field_putField_disjoint w m m _ hi lo h hd

theorem flag_putField_outside (w : Word) (hi lo v n : Nat) (h : hi < 64) (hd : n < lo ∨ hi < n) :
    flag (putField w hi lo v) n = flag w n := by
  rw [flag_putField w hi lo v n h, if_neg (by omega)]

/-- A whole field of a number below 2^64. -/
theorem field_lt (w : Word) (hi lo : Nat) : field w hi lo < 2 ^ (hi + 1 - lo) := Nat.mod_lt _ (Nat.two_pow_pos _)

theorem natLe_length (n v : Nat) : (natLe n v).length = n := by
  induction n generalizing v with
  | zero => rfl
  | succ n ih => simp [natLe, ih]

/-- A number written as n bytes reads back modulo 2^(8n) (R4). -/
theorem leNat_natLe (n v : Nat) : leNat (natLe n v) = v % 2 ^ (8 * n) := by
  induction n generalizing v with
  | zero => simp [natLe, leNat, Nat.mod_one]
  | succ n ih =>
    have e : 2 ^ (8 * (n + 1)) = 256 * 2 ^ (8 * n) := by
      rw [Nat.mul_add, Nat.pow_add]; omega
    rw [natLe, leNat, ih, e, Nat.mod_mul]
    simp [BitVec.toNat_ofNat]

end Sys2Proof.Machine
end

