-- ==== Sys2Proof/Laws/Table.lean ====
section
/-! SUPPORT. What the sparse tables do: reading after writing, and the canonical form that every operation keeps. -/
namespace Sys2Proof.Machine

section
variable {α : Type} (d : Nat → α)

theorem tget_tdel_same (t : Table α) (k : Nat) : tget d (tdel t k) k = d k := by
  induction t with
  | nil => rfl
  | cons e r ih =>
    by_cases h : e.1 = k
    · simpa [tdel, h] using ih
    · have h' : ¬ k = e.1 := fun x => h x.symm
      simpa [tdel, h, tget, h'] using ih

theorem tget_tdel_ne (t : Table α) (k j : Nat) (h : j ≠ k) : tget d (tdel t k) j = tget d t j := by
  induction t with
  | nil => rfl
  | cons e r ih =>
    by_cases he : e.1 = k
    · have hj : ¬ j = e.1 := by omega
      rw [show tget d (e :: r) j = tget d r j from by simp [tget, hj], ← ih]
      simp [tdel, he]
    · by_cases hj : j = e.1
      · simp [tdel, he, tget, hj]
      · simpa [tdel, he, tget, hj] using ih

theorem tget_tput_same (t : Table α) (k : Nat) (v : α) (h : ∀ e ∈ t, e.1 ≠ k) : tget d (tput t k v) k = v := by
  induction t with
  | nil => simp [tput, tget]
  | cons e r ih =>
    have h1 : ¬ k = e.1 := fun x => h e (by simp) x.symm
    unfold tput
    split
    · simp [tget]
    · simpa [tget, h1] using ih fun f hf => h f (by simp [hf])

theorem tget_tput_ne (t : Table α) (k j : Nat) (v : α) (h : j ≠ k) : tget d (tput t k v) j = tget d t j := by
  induction t with
  | nil => simp [tput, tget, h]
  | cons e r ih =>
    unfold tput
    split
    · simp [tget, h]
    · by_cases hj : j = e.1
      · simp [tget, hj]
      · simpa [tget, hj] using ih

variable [DecidableEq α]

/-- A key just written reads as its value. -/
@[simp] theorem tget_tset_same (t : Table α) (k : Nat) (v : α) : tget d (tset d t k v) k = v := by
  unfold tset
  split
  · next h => rw [tget_tdel_same, h]
  · exact tget_tput_same d _ k v fun e he => by simpa [tdel] using (List.mem_filter.mp he).2

/-- A key reads as before a write of another. -/
theorem tget_tset_ne (t : Table α) (k j : Nat) (v : α) (h : j ≠ k) : tget d (tset d t k v) j = tget d t j := by
  unfold tset
  split
  · exact tget_tdel_ne d t k j h
  · rw [tget_tput_ne d _ k j v h, tget_tdel_ne d t k j h]

theorem tget_tset (t : Table α) (k j : Nat) (v : α) :
    tget d (tset d t k v) j = if j = k then v else tget d t j := by
  split
  · next h => subst h; exact tget_tset_same d t j v
  · next h => exact tget_tset_ne d t k j v h

omit [DecidableEq α] in
theorem tdel_tdel (t : Table α) (k : Nat) : tdel (tdel t k) k = tdel t k := by
  simp [tdel]

omit [DecidableEq α] in
theorem tdel_tput (t : Table α) (k : Nat) (v : α) (h : ∀ e ∈ t, e.1 ≠ k) : tdel (tput t k v) k = t := by
  induction t with
  | nil => simp [tput, tdel]
  | cons e r ih =>
    have h1 : e.1 ≠ k := h e (by simp)
    unfold tput
    split
    · have : tdel (e :: r) k = e :: r := by
        simp only [tdel, List.filter_eq_self]
        intro a ha
        simpa using h a ha
      simpa [tdel] using this
    · have := ih fun f hf => h f (by simp [hf])
      unfold tdel at this ⊢
      rw [List.filter_cons, if_pos (by simpa using h1), this]

/-- The second of two writes of one key is what stays. -/
theorem tset_tset (t : Table α) (k : Nat) (u v : α) : tset d (tset d t k u) k v = tset d t k v := by
  have key : tdel (tset d t k u) k = tdel t k := by
    unfold tset
    split
    · exact tdel_tdel t k
    · exact tdel_tput _ k u fun e he => by simpa [tdel] using (List.mem_filter.mp he).2
  show (if v = d k then tdel (tset d t k u) k else tput (tdel (tset d t k u) k) k v) = _
  rw [key]
  rfl

/-! ### The canonical form -/

theorem twfFrom_mono {t : Table α} {a b : Nat} (hab : a ≤ b) (h : twfFrom d b t = true) : twfFrom d a t = true := by
  cases t with
  | nil => rfl
  | cons e r =>
    simp only [twfFrom, Bool.and_eq_true, decide_eq_true_eq] at *
    exact ⟨⟨by omega, h.1.2⟩, h.2⟩

theorem twfFrom_filter {p : Nat × α → Bool} {t : Table α} {a : Nat} (h : twfFrom d a t = true) :
    twfFrom d a (t.filter p) = true := by
  induction t generalizing a with
  | nil => rfl
  | cons e r ih =>
    simp only [twfFrom, Bool.and_eq_true, decide_eq_true_eq] at h
    by_cases hp : p e = true
    · simp only [List.filter_cons, hp, if_true, twfFrom, Bool.and_eq_true, decide_eq_true_eq]
      exact ⟨h.1, ih h.2⟩
    · simp only [List.filter_cons, hp]
      exact twfFrom_mono d (by omega) (ih h.2)

theorem twfFrom_tput {t : Table α} {a k : Nat} {v : α} (h : twfFrom d a t = true) (hk : a ≤ k) (hv : v ≠ d k)
    (hn : ∀ e ∈ t, e.1 ≠ k) : twfFrom d a (tput t k v) = true := by
  induction t generalizing a with
  | nil => simp [tput, twfFrom, hk, hv]
  | cons e r ih =>
    simp only [twfFrom, Bool.and_eq_true, decide_eq_true_eq] at h
    have h1 := hn e (by simp)
    unfold tput
    split
    · next hlt =>
      simp only [twfFrom, Bool.and_eq_true, decide_eq_true_eq]
      refine ⟨⟨hk, by simpa using hv⟩, ⟨?_, h.1.2⟩, h.2⟩
      omega
    · next hlt =>
      simp only [twfFrom, Bool.and_eq_true, decide_eq_true_eq]
      exact ⟨h.1, ih h.2 (by omega) fun f hf => hn f (by simp [hf])⟩

/-- A filtered table keeps the canonical form. -/
theorem twf_filter {p : Nat × α → Bool} {t : Table α} (h : twf d t = true) : twf d (t.filter p) = true :=
  twfFrom_filter d h

/-- A write keeps the canonical form. -/
theorem twf_tset {t : Table α} (k : Nat) (v : α) (h : twf d t = true) : twf d (tset d t k v) = true := by
  unfold tset
  split
  · exact twf_filter d h
  · next hv =>
    exact twfFrom_tput d (twf_filter d h) (by omega) hv fun e he => by simpa [tdel] using (List.mem_filter.mp he).2

/-- Clearing a range keeps the canonical form. -/
theorem twf_tclear {t : Table α} (a n : Nat) (h : twf d t = true) : twf d (tclear t a n) = true := twf_filter d h

omit [DecidableEq α] in
/-- What a cleared range reads as, and what stays outside it. -/
theorem tget_tclear (t : Table α) (a n k : Nat) :
    tget d (tclear t a n) k = if a ≤ k ∧ k < a + n then d k else tget d t k := by
  induction t with
  | nil => simp [tclear, tget]
  | cons e r ih =>
    unfold tclear at ih ⊢
    by_cases he : e.1 < a ∨ a + n ≤ e.1
    · have hf : (decide (e.1 < a) || decide (a + n ≤ e.1)) = true := by simpa using he
      simp only [List.filter_cons, hf, if_true, tget]
      by_cases hk : k = e.1
      · simp only [hk, if_true]
        rw [if_neg (by omega)]
      · simpa [hk] using ih
    · have hf : (decide (e.1 < a) || decide (a + n ≤ e.1)) = false := by
        simp only [Bool.or_eq_false_iff, decide_eq_false_iff_not]; omega
      simp only [List.filter_cons, hf, Bool.false_eq_true, if_false, tget]
      by_cases hk : k = e.1
      · subst hk
        rw [ih, if_pos (by omega), if_pos (by omega)]
      · simpa [hk] using ih

end

end Sys2Proof.Machine
end

