-- ==== Sys2Proof/Laws/State.lean ====
section
/-! SUPPORT. What the updates of State change and what they leave: one lemma per field per update, and what the named
reads answer after the named writes. -/
namespace Sys2Proof.Machine

variable (s : State)

/-! ### State.setReg -/

@[simp] theorem State.setReg_pending (o : Nat) (v : Word) : (s.setReg o v).pending = s.pending := rfl
@[simp] theorem State.setReg_free (o : Nat) (v : Word) : (s.setReg o v).free = s.free := rfl
@[simp] theorem State.setReg_mem (o : Nat) (v : Word) : (s.setReg o v).mem = s.mem := rfl
@[simp] theorem State.setReg_ecc (o : Nat) (v : Word) : (s.setReg o v).ecc = s.ecc := rfl
@[simp] theorem State.setReg_mode (o : Nat) (v : Word) : (s.setReg o v).mode = s.mode := rfl
@[simp] theorem State.setReg_alwaysOn (o : Nat) (v : Word) : (s.setReg o v).alwaysOn = s.alwaysOn := rfl
@[simp] theorem State.setReg_resetDue (o : Nat) (v : Word) : (s.setReg o v).resetDue = s.resetDue := rfl
@[simp] theorem State.setReg_watchdog (o : Nat) (v : Word) : (s.setReg o v).watchdog = s.watchdog := rfl
@[simp] theorem State.setReg_power (o : Nat) (v : Word) : (s.setReg o v).power = s.power := rfl
@[simp] theorem State.setReg_flash (o : Nat) (v : Word) : (s.setReg o v).flash = s.flash := rfl
@[simp] theorem State.setReg_fwRunning (o : Nat) (v : Word) : (s.setReg o v).fwRunning = s.fwRunning := rfl
@[simp] theorem State.setReg_applied (o : Nat) (v : Word) : (s.setReg o v).applied = s.applied := rfl
@[simp] theorem State.setReg_appliedImage (o : Nat) (v : Word) : (s.setReg o v).appliedImage = s.appliedImage := rfl
@[simp] theorem State.setReg_seamRetrain (o : Nat) (v : Word) : (s.setReg o v).seamRetrain = s.seamRetrain := rfl
@[simp] theorem State.setReg_domainLost (o : Nat) (v : Word) : (s.setReg o v).domainLost = s.domainLost := rfl
@[simp] theorem State.setReg_tileMap (o : Nat) (v : Word) : (s.setReg o v).tileMap = s.tileMap := rfl
@[simp] theorem State.setReg_tiles (o : Nat) (v : Word) : (s.setReg o v).tiles = s.tiles := rfl
@[simp] theorem State.setReg_chans (o : Nat) (v : Word) : (s.setReg o v).chans = s.chans := rfl
@[simp] theorem State.setReg_hbm (o : Nat) (v : Word) : (s.setReg o v).hbm = s.hbm := rfl
@[simp] theorem State.setReg_tokens (o : Nat) (v : Word) : (s.setReg o v).tokens = s.tokens := rfl
@[simp] theorem State.setReg_cxl (o : Nat) (v : Word) : (s.setReg o v).cxl = s.cxl := rfl
@[simp] theorem State.setReg_arbs (o : Nat) (v : Word) : (s.setReg o v).arbs = s.arbs := rfl
@[simp] theorem State.setReg_credits (o : Nat) (v : Word) : (s.setReg o v).credits = s.credits := rfl
@[simp] theorem State.setReg_fab (o : Nat) (v : Word) : (s.setReg o v).fab = s.fab := rfl
@[simp] theorem State.setReg_turns (o : Nat) (v : Word) : (s.setReg o v).turns = s.turns := rfl
@[simp] theorem State.setReg_mgrants (o : Nat) (v : Word) : (s.setReg o v).mgrants = s.mgrants := rfl
@[simp] theorem State.setReg_netSlots (o : Nat) (v : Word) : (s.setReg o v).netSlots = s.netSlots := rfl
@[simp] theorem State.setReg_mvTurn (o : Nat) (v : Word) : (s.setReg o v).mvTurn = s.mvTurn := rfl
@[simp] theorem State.setReg_flows (o : Nat) (v : Word) : (s.setReg o v).flows = s.flows := rfl
@[simp] theorem State.setReg_links (o : Nat) (v : Word) : (s.setReg o v).links = s.links := rfl
@[simp] theorem State.setReg_arrived (o : Nat) (v : Word) : (s.setReg o v).arrived = s.arrived := rfl
@[simp] theorem State.setReg_forward (o : Nat) (v : Word) : (s.setReg o v).forward = s.forward := rfl
@[simp] theorem State.setReg_jobs (o : Nat) (v : Word) : (s.setReg o v).jobs = s.jobs := rfl
@[simp] theorem State.setReg_aborts (o : Nat) (v : Word) : (s.setReg o v).aborts = s.aborts := rfl
@[simp] theorem State.setReg_cmds (o : Nat) (v : Word) : (s.setReg o v).cmds = s.cmds := rfl
@[simp] theorem State.setReg_nextCid (o : Nat) (v : Word) : (s.setReg o v).nextCid = s.nextCid := rfl
@[simp] theorem State.setReg_queues (o : Nat) (v : Word) : (s.setReg o v).queues = s.queues := rfl
@[simp] theorem State.setReg_qTurn (o : Nat) (v : Word) : (s.setReg o v).qTurn = s.qTurn := rfl
@[simp] theorem State.setReg_versions (o : Nat) (v : Word) : (s.setReg o v).versions = s.versions := rfl
@[simp] theorem State.setReg_glaunches (o : Nat) (v : Word) : (s.setReg o v).glaunches = s.glaunches := rfl
@[simp] theorem State.setReg_graphNo (o : Nat) (v : Word) : (s.setReg o v).graphNo = s.graphNo := rfl
@[simp] theorem State.setReg_mbox (o : Nat) (v : Word) : (s.setReg o v).mbox = s.mbox := rfl
@[simp] theorem State.setReg_mboxRegs (o : Nat) (v : Word) : (s.setReg o v).mboxRegs = s.mboxRegs := rfl
@[simp] theorem State.setReg_secure (o : Nat) (v : Word) : (s.setReg o v).secure = s.secure := rfl
@[simp] theorem State.setReg_d2hHeld (o : Nat) (v : Word) : (s.setReg o v).d2hHeld = s.d2hHeld := rfl
@[simp] theorem State.setReg_ppRun (o : Nat) (v : Word) : (s.setReg o v).ppRun = s.ppRun := rfl
@[simp] theorem State.setReg_rcvErased (o : Nat) (v : Word) : (s.setReg o v).rcvErased = s.rcvErased := rfl
@[simp] theorem State.setReg_ports (o : Nat) (v : Word) : (s.setReg o v).ports = s.ports := rfl
@[simp] theorem State.setReg_msix (o : Nat) (v : Word) : (s.setReg o v).msix = s.msix := rfl
@[simp] theorem State.setReg_msixPend (o : Nat) (v : Word) : (s.setReg o v).msixPend = s.msixPend := rfl
@[simp] theorem State.setReg_out (o : Nat) (v : Word) : (s.setReg o v).out = s.out := rfl
@[simp] theorem State.setReg_read_byte (o : Nat) (v : Word) (k : Nat) : (s.setReg o v).byte k = s.byte k := rfl
@[simp] theorem State.setReg_read_bytes (o : Nat) (v : Word) (k m : Nat) : (s.setReg o v).bytes k m = s.bytes k m := rfl
@[simp] theorem State.setReg_read_tile (o : Nat) (v : Word) (k : Nat) : (s.setReg o v).tile k = s.tile k := rfl
@[simp] theorem State.setReg_read_chan (o : Nat) (v : Word) (k : Nat) : (s.setReg o v).chan k = s.chan k := rfl
@[simp] theorem State.setReg_read_stack (o : Nat) (v : Word) (k : Nat) : (s.setReg o v).stack k = s.stack k := rfl
@[simp] theorem State.setReg_read_flow (o : Nat) (v : Word) (k : Nat) : (s.setReg o v).flow k = s.flow k := rfl
@[simp] theorem State.setReg_read_link (o : Nat) (v : Word) (k l : Nat) : (s.setReg o v).link k l = s.link k l := rfl
@[simp] theorem State.setReg_read_queue (o : Nat) (v : Word) (k : Nat) : (s.setReg o v).queue k = s.queue k := rfl
@[simp] theorem State.setReg_read_mail (o : Nat) (v : Word) (k l m : Nat) : (s.setReg o v).mail k l m = s.mail k l m := rfl
@[simp] theorem State.setReg_read_port (o : Nat) (v : Word) (k : Nat) : (s.setReg o v).port k = s.port k := rfl
@[simp] theorem State.setReg_read_cmd (o : Nat) (v : Word) (k : Nat) : (s.setReg o v).cmd? k = s.cmd? k := rfl
@[simp] theorem State.setReg_read_mboxReg (o : Nat) (v : Word) (k l : Nat) : (s.setReg o v).mboxReg k l = s.mboxReg k l := rfl
@[simp] theorem State.setReg_read_eccAt (o : Nat) (v : Word) (k : Nat) : (s.setReg o v).eccAt k = s.eccAt k := rfl

/-! ### State.resetRegs -/

@[simp] theorem State.resetRegs_pending (a n : Nat) : (s.resetRegs a n).pending = s.pending := rfl
@[simp] theorem State.resetRegs_free (a n : Nat) : (s.resetRegs a n).free = s.free := rfl
@[simp] theorem State.resetRegs_mem (a n : Nat) : (s.resetRegs a n).mem = s.mem := rfl
@[simp] theorem State.resetRegs_ecc (a n : Nat) : (s.resetRegs a n).ecc = s.ecc := rfl
@[simp] theorem State.resetRegs_mode (a n : Nat) : (s.resetRegs a n).mode = s.mode := rfl
@[simp] theorem State.resetRegs_alwaysOn (a n : Nat) : (s.resetRegs a n).alwaysOn = s.alwaysOn := rfl
@[simp] theorem State.resetRegs_resetDue (a n : Nat) : (s.resetRegs a n).resetDue = s.resetDue := rfl
@[simp] theorem State.resetRegs_watchdog (a n : Nat) : (s.resetRegs a n).watchdog = s.watchdog := rfl
@[simp] theorem State.resetRegs_power (a n : Nat) : (s.resetRegs a n).power = s.power := rfl
@[simp] theorem State.resetRegs_flash (a n : Nat) : (s.resetRegs a n).flash = s.flash := rfl
@[simp] theorem State.resetRegs_fwRunning (a n : Nat) : (s.resetRegs a n).fwRunning = s.fwRunning := rfl
@[simp] theorem State.resetRegs_applied (a n : Nat) : (s.resetRegs a n).applied = s.applied := rfl
@[simp] theorem State.resetRegs_appliedImage (a n : Nat) : (s.resetRegs a n).appliedImage = s.appliedImage := rfl
@[simp] theorem State.resetRegs_seamRetrain (a n : Nat) : (s.resetRegs a n).seamRetrain = s.seamRetrain := rfl
@[simp] theorem State.resetRegs_domainLost (a n : Nat) : (s.resetRegs a n).domainLost = s.domainLost := rfl
@[simp] theorem State.resetRegs_tileMap (a n : Nat) : (s.resetRegs a n).tileMap = s.tileMap := rfl
@[simp] theorem State.resetRegs_tiles (a n : Nat) : (s.resetRegs a n).tiles = s.tiles := rfl
@[simp] theorem State.resetRegs_chans (a n : Nat) : (s.resetRegs a n).chans = s.chans := rfl
@[simp] theorem State.resetRegs_hbm (a n : Nat) : (s.resetRegs a n).hbm = s.hbm := rfl
@[simp] theorem State.resetRegs_tokens (a n : Nat) : (s.resetRegs a n).tokens = s.tokens := rfl
@[simp] theorem State.resetRegs_cxl (a n : Nat) : (s.resetRegs a n).cxl = s.cxl := rfl
@[simp] theorem State.resetRegs_arbs (a n : Nat) : (s.resetRegs a n).arbs = s.arbs := rfl
@[simp] theorem State.resetRegs_credits (a n : Nat) : (s.resetRegs a n).credits = s.credits := rfl
@[simp] theorem State.resetRegs_fab (a n : Nat) : (s.resetRegs a n).fab = s.fab := rfl
@[simp] theorem State.resetRegs_turns (a n : Nat) : (s.resetRegs a n).turns = s.turns := rfl
@[simp] theorem State.resetRegs_mgrants (a n : Nat) : (s.resetRegs a n).mgrants = s.mgrants := rfl
@[simp] theorem State.resetRegs_netSlots (a n : Nat) : (s.resetRegs a n).netSlots = s.netSlots := rfl
@[simp] theorem State.resetRegs_mvTurn (a n : Nat) : (s.resetRegs a n).mvTurn = s.mvTurn := rfl
@[simp] theorem State.resetRegs_flows (a n : Nat) : (s.resetRegs a n).flows = s.flows := rfl
@[simp] theorem State.resetRegs_links (a n : Nat) : (s.resetRegs a n).links = s.links := rfl
@[simp] theorem State.resetRegs_arrived (a n : Nat) : (s.resetRegs a n).arrived = s.arrived := rfl
@[simp] theorem State.resetRegs_forward (a n : Nat) : (s.resetRegs a n).forward = s.forward := rfl
@[simp] theorem State.resetRegs_jobs (a n : Nat) : (s.resetRegs a n).jobs = s.jobs := rfl
@[simp] theorem State.resetRegs_aborts (a n : Nat) : (s.resetRegs a n).aborts = s.aborts := rfl
@[simp] theorem State.resetRegs_cmds (a n : Nat) : (s.resetRegs a n).cmds = s.cmds := rfl
@[simp] theorem State.resetRegs_nextCid (a n : Nat) : (s.resetRegs a n).nextCid = s.nextCid := rfl
@[simp] theorem State.resetRegs_queues (a n : Nat) : (s.resetRegs a n).queues = s.queues := rfl
@[simp] theorem State.resetRegs_qTurn (a n : Nat) : (s.resetRegs a n).qTurn = s.qTurn := rfl
@[simp] theorem State.resetRegs_versions (a n : Nat) : (s.resetRegs a n).versions = s.versions := rfl
@[simp] theorem State.resetRegs_glaunches (a n : Nat) : (s.resetRegs a n).glaunches = s.glaunches := rfl
@[simp] theorem State.resetRegs_graphNo (a n : Nat) : (s.resetRegs a n).graphNo = s.graphNo := rfl
@[simp] theorem State.resetRegs_mbox (a n : Nat) : (s.resetRegs a n).mbox = s.mbox := rfl
@[simp] theorem State.resetRegs_mboxRegs (a n : Nat) : (s.resetRegs a n).mboxRegs = s.mboxRegs := rfl
@[simp] theorem State.resetRegs_secure (a n : Nat) : (s.resetRegs a n).secure = s.secure := rfl
@[simp] theorem State.resetRegs_d2hHeld (a n : Nat) : (s.resetRegs a n).d2hHeld = s.d2hHeld := rfl
@[simp] theorem State.resetRegs_ppRun (a n : Nat) : (s.resetRegs a n).ppRun = s.ppRun := rfl
@[simp] theorem State.resetRegs_rcvErased (a n : Nat) : (s.resetRegs a n).rcvErased = s.rcvErased := rfl
@[simp] theorem State.resetRegs_ports (a n : Nat) : (s.resetRegs a n).ports = s.ports := rfl
@[simp] theorem State.resetRegs_msix (a n : Nat) : (s.resetRegs a n).msix = s.msix := rfl
@[simp] theorem State.resetRegs_msixPend (a n : Nat) : (s.resetRegs a n).msixPend = s.msixPend := rfl
@[simp] theorem State.resetRegs_out (a n : Nat) : (s.resetRegs a n).out = s.out := rfl
@[simp] theorem State.resetRegs_read_byte (a n : Nat) (k : Nat) : (s.resetRegs a n).byte k = s.byte k := rfl
@[simp] theorem State.resetRegs_read_bytes (a n : Nat) (k m : Nat) : (s.resetRegs a n).bytes k m = s.bytes k m := rfl
@[simp] theorem State.resetRegs_read_tile (a n : Nat) (k : Nat) : (s.resetRegs a n).tile k = s.tile k := rfl
@[simp] theorem State.resetRegs_read_chan (a n : Nat) (k : Nat) : (s.resetRegs a n).chan k = s.chan k := rfl
@[simp] theorem State.resetRegs_read_stack (a n : Nat) (k : Nat) : (s.resetRegs a n).stack k = s.stack k := rfl
@[simp] theorem State.resetRegs_read_flow (a n : Nat) (k : Nat) : (s.resetRegs a n).flow k = s.flow k := rfl
@[simp] theorem State.resetRegs_read_link (a n : Nat) (k l : Nat) : (s.resetRegs a n).link k l = s.link k l := rfl
@[simp] theorem State.resetRegs_read_queue (a n : Nat) (k : Nat) : (s.resetRegs a n).queue k = s.queue k := rfl
@[simp] theorem State.resetRegs_read_mail (a n : Nat) (k l m : Nat) : (s.resetRegs a n).mail k l m = s.mail k l m := rfl
@[simp] theorem State.resetRegs_read_port (a n : Nat) (k : Nat) : (s.resetRegs a n).port k = s.port k := rfl
@[simp] theorem State.resetRegs_read_cmd (a n : Nat) (k : Nat) : (s.resetRegs a n).cmd? k = s.cmd? k := rfl
@[simp] theorem State.resetRegs_read_mboxReg (a n : Nat) (k l : Nat) : (s.resetRegs a n).mboxReg k l = s.mboxReg k l := rfl
@[simp] theorem State.resetRegs_read_eccAt (a n : Nat) (k : Nat) : (s.resetRegs a n).eccAt k = s.eccAt k := rfl

/-! ### State.emit -/

@[simp] theorem State.emit_pending (e : Emit) : (s.emit e).pending = s.pending := rfl
@[simp] theorem State.emit_free (e : Emit) : (s.emit e).free = s.free := rfl
@[simp] theorem State.emit_regs (e : Emit) : (s.emit e).regs = s.regs := rfl
@[simp] theorem State.emit_mem (e : Emit) : (s.emit e).mem = s.mem := rfl
@[simp] theorem State.emit_ecc (e : Emit) : (s.emit e).ecc = s.ecc := rfl
@[simp] theorem State.emit_mode (e : Emit) : (s.emit e).mode = s.mode := rfl
@[simp] theorem State.emit_alwaysOn (e : Emit) : (s.emit e).alwaysOn = s.alwaysOn := rfl
@[simp] theorem State.emit_resetDue (e : Emit) : (s.emit e).resetDue = s.resetDue := rfl
@[simp] theorem State.emit_watchdog (e : Emit) : (s.emit e).watchdog = s.watchdog := rfl
@[simp] theorem State.emit_power (e : Emit) : (s.emit e).power = s.power := rfl
@[simp] theorem State.emit_flash (e : Emit) : (s.emit e).flash = s.flash := rfl
@[simp] theorem State.emit_fwRunning (e : Emit) : (s.emit e).fwRunning = s.fwRunning := rfl
@[simp] theorem State.emit_applied (e : Emit) : (s.emit e).applied = s.applied := rfl
@[simp] theorem State.emit_appliedImage (e : Emit) : (s.emit e).appliedImage = s.appliedImage := rfl
@[simp] theorem State.emit_seamRetrain (e : Emit) : (s.emit e).seamRetrain = s.seamRetrain := rfl
@[simp] theorem State.emit_domainLost (e : Emit) : (s.emit e).domainLost = s.domainLost := rfl
@[simp] theorem State.emit_tileMap (e : Emit) : (s.emit e).tileMap = s.tileMap := rfl
@[simp] theorem State.emit_tiles (e : Emit) : (s.emit e).tiles = s.tiles := rfl
@[simp] theorem State.emit_chans (e : Emit) : (s.emit e).chans = s.chans := rfl
@[simp] theorem State.emit_hbm (e : Emit) : (s.emit e).hbm = s.hbm := rfl
@[simp] theorem State.emit_tokens (e : Emit) : (s.emit e).tokens = s.tokens := rfl
@[simp] theorem State.emit_cxl (e : Emit) : (s.emit e).cxl = s.cxl := rfl
@[simp] theorem State.emit_arbs (e : Emit) : (s.emit e).arbs = s.arbs := rfl
@[simp] theorem State.emit_credits (e : Emit) : (s.emit e).credits = s.credits := rfl
@[simp] theorem State.emit_fab (e : Emit) : (s.emit e).fab = s.fab := rfl
@[simp] theorem State.emit_turns (e : Emit) : (s.emit e).turns = s.turns := rfl
@[simp] theorem State.emit_mgrants (e : Emit) : (s.emit e).mgrants = s.mgrants := rfl
@[simp] theorem State.emit_netSlots (e : Emit) : (s.emit e).netSlots = s.netSlots := rfl
@[simp] theorem State.emit_mvTurn (e : Emit) : (s.emit e).mvTurn = s.mvTurn := rfl
@[simp] theorem State.emit_flows (e : Emit) : (s.emit e).flows = s.flows := rfl
@[simp] theorem State.emit_links (e : Emit) : (s.emit e).links = s.links := rfl
@[simp] theorem State.emit_arrived (e : Emit) : (s.emit e).arrived = s.arrived := rfl
@[simp] theorem State.emit_forward (e : Emit) : (s.emit e).forward = s.forward := rfl
@[simp] theorem State.emit_jobs (e : Emit) : (s.emit e).jobs = s.jobs := rfl
@[simp] theorem State.emit_aborts (e : Emit) : (s.emit e).aborts = s.aborts := rfl
@[simp] theorem State.emit_cmds (e : Emit) : (s.emit e).cmds = s.cmds := rfl
@[simp] theorem State.emit_nextCid (e : Emit) : (s.emit e).nextCid = s.nextCid := rfl
@[simp] theorem State.emit_queues (e : Emit) : (s.emit e).queues = s.queues := rfl
@[simp] theorem State.emit_qTurn (e : Emit) : (s.emit e).qTurn = s.qTurn := rfl
@[simp] theorem State.emit_versions (e : Emit) : (s.emit e).versions = s.versions := rfl
@[simp] theorem State.emit_glaunches (e : Emit) : (s.emit e).glaunches = s.glaunches := rfl
@[simp] theorem State.emit_graphNo (e : Emit) : (s.emit e).graphNo = s.graphNo := rfl
@[simp] theorem State.emit_mbox (e : Emit) : (s.emit e).mbox = s.mbox := rfl
@[simp] theorem State.emit_mboxRegs (e : Emit) : (s.emit e).mboxRegs = s.mboxRegs := rfl
@[simp] theorem State.emit_secure (e : Emit) : (s.emit e).secure = s.secure := rfl
@[simp] theorem State.emit_d2hHeld (e : Emit) : (s.emit e).d2hHeld = s.d2hHeld := rfl
@[simp] theorem State.emit_ppRun (e : Emit) : (s.emit e).ppRun = s.ppRun := rfl
@[simp] theorem State.emit_rcvErased (e : Emit) : (s.emit e).rcvErased = s.rcvErased := rfl
@[simp] theorem State.emit_ports (e : Emit) : (s.emit e).ports = s.ports := rfl
@[simp] theorem State.emit_msix (e : Emit) : (s.emit e).msix = s.msix := rfl
@[simp] theorem State.emit_msixPend (e : Emit) : (s.emit e).msixPend = s.msixPend := rfl
@[simp] theorem State.emit_read_reg (e : Emit) (k : Nat) : (s.emit e).reg k = s.reg k := rfl
@[simp] theorem State.emit_read_byte (e : Emit) (k : Nat) : (s.emit e).byte k = s.byte k := rfl
@[simp] theorem State.emit_read_bytes (e : Emit) (k m : Nat) : (s.emit e).bytes k m = s.bytes k m := rfl
@[simp] theorem State.emit_read_tile (e : Emit) (k : Nat) : (s.emit e).tile k = s.tile k := rfl
@[simp] theorem State.emit_read_chan (e : Emit) (k : Nat) : (s.emit e).chan k = s.chan k := rfl
@[simp] theorem State.emit_read_stack (e : Emit) (k : Nat) : (s.emit e).stack k = s.stack k := rfl
@[simp] theorem State.emit_read_flow (e : Emit) (k : Nat) : (s.emit e).flow k = s.flow k := rfl
@[simp] theorem State.emit_read_link (e : Emit) (k l : Nat) : (s.emit e).link k l = s.link k l := rfl
@[simp] theorem State.emit_read_queue (e : Emit) (k : Nat) : (s.emit e).queue k = s.queue k := rfl
@[simp] theorem State.emit_read_mail (e : Emit) (k l m : Nat) : (s.emit e).mail k l m = s.mail k l m := rfl
@[simp] theorem State.emit_read_port (e : Emit) (k : Nat) : (s.emit e).port k = s.port k := rfl
@[simp] theorem State.emit_read_cmd (e : Emit) (k : Nat) : (s.emit e).cmd? k = s.cmd? k := rfl
@[simp] theorem State.emit_read_mboxReg (e : Emit) (k l : Nat) : (s.emit e).mboxReg k l = s.mboxReg k l := rfl
@[simp] theorem State.emit_read_eccAt (e : Emit) (k : Nat) : (s.emit e).eccAt k = s.eccAt k := rfl

/-! ### State.store -/

@[simp] theorem State.store_pending (a : Nat) (bs : List Byte) : (s.store a bs).pending = s.pending := rfl
@[simp] theorem State.store_free (a : Nat) (bs : List Byte) : (s.store a bs).free = s.free := rfl
@[simp] theorem State.store_regs (a : Nat) (bs : List Byte) : (s.store a bs).regs = s.regs := rfl
@[simp] theorem State.store_ecc (a : Nat) (bs : List Byte) : (s.store a bs).ecc = s.ecc := rfl
@[simp] theorem State.store_mode (a : Nat) (bs : List Byte) : (s.store a bs).mode = s.mode := rfl
@[simp] theorem State.store_alwaysOn (a : Nat) (bs : List Byte) : (s.store a bs).alwaysOn = s.alwaysOn := rfl
@[simp] theorem State.store_resetDue (a : Nat) (bs : List Byte) : (s.store a bs).resetDue = s.resetDue := rfl
@[simp] theorem State.store_watchdog (a : Nat) (bs : List Byte) : (s.store a bs).watchdog = s.watchdog := rfl
@[simp] theorem State.store_power (a : Nat) (bs : List Byte) : (s.store a bs).power = s.power := rfl
@[simp] theorem State.store_flash (a : Nat) (bs : List Byte) : (s.store a bs).flash = s.flash := rfl
@[simp] theorem State.store_fwRunning (a : Nat) (bs : List Byte) : (s.store a bs).fwRunning = s.fwRunning := rfl
@[simp] theorem State.store_applied (a : Nat) (bs : List Byte) : (s.store a bs).applied = s.applied := rfl
@[simp] theorem State.store_appliedImage (a : Nat) (bs : List Byte) : (s.store a bs).appliedImage = s.appliedImage := rfl
@[simp] theorem State.store_seamRetrain (a : Nat) (bs : List Byte) : (s.store a bs).seamRetrain = s.seamRetrain := rfl
@[simp] theorem State.store_domainLost (a : Nat) (bs : List Byte) : (s.store a bs).domainLost = s.domainLost := rfl
@[simp] theorem State.store_tileMap (a : Nat) (bs : List Byte) : (s.store a bs).tileMap = s.tileMap := rfl
@[simp] theorem State.store_tiles (a : Nat) (bs : List Byte) : (s.store a bs).tiles = s.tiles := rfl
@[simp] theorem State.store_chans (a : Nat) (bs : List Byte) : (s.store a bs).chans = s.chans := rfl
@[simp] theorem State.store_hbm (a : Nat) (bs : List Byte) : (s.store a bs).hbm = s.hbm := rfl
@[simp] theorem State.store_tokens (a : Nat) (bs : List Byte) : (s.store a bs).tokens = s.tokens := rfl
@[simp] theorem State.store_cxl (a : Nat) (bs : List Byte) : (s.store a bs).cxl = s.cxl := rfl
@[simp] theorem State.store_arbs (a : Nat) (bs : List Byte) : (s.store a bs).arbs = s.arbs := rfl
@[simp] theorem State.store_credits (a : Nat) (bs : List Byte) : (s.store a bs).credits = s.credits := rfl
@[simp] theorem State.store_fab (a : Nat) (bs : List Byte) : (s.store a bs).fab = s.fab := rfl
@[simp] theorem State.store_turns (a : Nat) (bs : List Byte) : (s.store a bs).turns = s.turns := rfl
@[simp] theorem State.store_mgrants (a : Nat) (bs : List Byte) : (s.store a bs).mgrants = s.mgrants := rfl
@[simp] theorem State.store_netSlots (a : Nat) (bs : List Byte) : (s.store a bs).netSlots = s.netSlots := rfl
@[simp] theorem State.store_mvTurn (a : Nat) (bs : List Byte) : (s.store a bs).mvTurn = s.mvTurn := rfl
@[simp] theorem State.store_flows (a : Nat) (bs : List Byte) : (s.store a bs).flows = s.flows := rfl
@[simp] theorem State.store_links (a : Nat) (bs : List Byte) : (s.store a bs).links = s.links := rfl
@[simp] theorem State.store_arrived (a : Nat) (bs : List Byte) : (s.store a bs).arrived = s.arrived := rfl
@[simp] theorem State.store_forward (a : Nat) (bs : List Byte) : (s.store a bs).forward = s.forward := rfl
@[simp] theorem State.store_jobs (a : Nat) (bs : List Byte) : (s.store a bs).jobs = s.jobs := rfl
@[simp] theorem State.store_aborts (a : Nat) (bs : List Byte) : (s.store a bs).aborts = s.aborts := rfl
@[simp] theorem State.store_cmds (a : Nat) (bs : List Byte) : (s.store a bs).cmds = s.cmds := rfl
@[simp] theorem State.store_nextCid (a : Nat) (bs : List Byte) : (s.store a bs).nextCid = s.nextCid := rfl
@[simp] theorem State.store_queues (a : Nat) (bs : List Byte) : (s.store a bs).queues = s.queues := rfl
@[simp] theorem State.store_qTurn (a : Nat) (bs : List Byte) : (s.store a bs).qTurn = s.qTurn := rfl
@[simp] theorem State.store_versions (a : Nat) (bs : List Byte) : (s.store a bs).versions = s.versions := rfl
@[simp] theorem State.store_glaunches (a : Nat) (bs : List Byte) : (s.store a bs).glaunches = s.glaunches := rfl
@[simp] theorem State.store_graphNo (a : Nat) (bs : List Byte) : (s.store a bs).graphNo = s.graphNo := rfl
@[simp] theorem State.store_mbox (a : Nat) (bs : List Byte) : (s.store a bs).mbox = s.mbox := rfl
@[simp] theorem State.store_mboxRegs (a : Nat) (bs : List Byte) : (s.store a bs).mboxRegs = s.mboxRegs := rfl
@[simp] theorem State.store_secure (a : Nat) (bs : List Byte) : (s.store a bs).secure = s.secure := rfl
@[simp] theorem State.store_d2hHeld (a : Nat) (bs : List Byte) : (s.store a bs).d2hHeld = s.d2hHeld := rfl
@[simp] theorem State.store_ppRun (a : Nat) (bs : List Byte) : (s.store a bs).ppRun = s.ppRun := rfl
@[simp] theorem State.store_rcvErased (a : Nat) (bs : List Byte) : (s.store a bs).rcvErased = s.rcvErased := rfl
@[simp] theorem State.store_ports (a : Nat) (bs : List Byte) : (s.store a bs).ports = s.ports := rfl
@[simp] theorem State.store_msix (a : Nat) (bs : List Byte) : (s.store a bs).msix = s.msix := rfl
@[simp] theorem State.store_msixPend (a : Nat) (bs : List Byte) : (s.store a bs).msixPend = s.msixPend := rfl
@[simp] theorem State.store_out (a : Nat) (bs : List Byte) : (s.store a bs).out = s.out := rfl
@[simp] theorem State.store_read_reg (a : Nat) (bs : List Byte) (k : Nat) : (s.store a bs).reg k = s.reg k := rfl
@[simp] theorem State.store_read_tile (a : Nat) (bs : List Byte) (k : Nat) : (s.store a bs).tile k = s.tile k := rfl
@[simp] theorem State.store_read_chan (a : Nat) (bs : List Byte) (k : Nat) : (s.store a bs).chan k = s.chan k := rfl
@[simp] theorem State.store_read_stack (a : Nat) (bs : List Byte) (k : Nat) : (s.store a bs).stack k = s.stack k := rfl
@[simp] theorem State.store_read_flow (a : Nat) (bs : List Byte) (k : Nat) : (s.store a bs).flow k = s.flow k := rfl
@[simp] theorem State.store_read_link (a : Nat) (bs : List Byte) (k l : Nat) : (s.store a bs).link k l = s.link k l := rfl
@[simp] theorem State.store_read_queue (a : Nat) (bs : List Byte) (k : Nat) : (s.store a bs).queue k = s.queue k := rfl
@[simp] theorem State.store_read_mail (a : Nat) (bs : List Byte) (k l m : Nat) : (s.store a bs).mail k l m = s.mail k l m := rfl
@[simp] theorem State.store_read_port (a : Nat) (bs : List Byte) (k : Nat) : (s.store a bs).port k = s.port k := rfl
@[simp] theorem State.store_read_cmd (a : Nat) (bs : List Byte) (k : Nat) : (s.store a bs).cmd? k = s.cmd? k := rfl
@[simp] theorem State.store_read_mboxReg (a : Nat) (bs : List Byte) (k l : Nat) : (s.store a bs).mboxReg k l = s.mboxReg k l := rfl
@[simp] theorem State.store_read_eccAt (a : Nat) (bs : List Byte) (k : Nat) : (s.store a bs).eccAt k = s.eccAt k := rfl

/-! ### State.setEcc -/

@[simp] theorem State.setEcc_pending (a : Nat) (e : Ecc) : (s.setEcc a e).pending = s.pending := rfl
@[simp] theorem State.setEcc_free (a : Nat) (e : Ecc) : (s.setEcc a e).free = s.free := rfl
@[simp] theorem State.setEcc_regs (a : Nat) (e : Ecc) : (s.setEcc a e).regs = s.regs := rfl
@[simp] theorem State.setEcc_mem (a : Nat) (e : Ecc) : (s.setEcc a e).mem = s.mem := rfl
@[simp] theorem State.setEcc_mode (a : Nat) (e : Ecc) : (s.setEcc a e).mode = s.mode := rfl
@[simp] theorem State.setEcc_alwaysOn (a : Nat) (e : Ecc) : (s.setEcc a e).alwaysOn = s.alwaysOn := rfl
@[simp] theorem State.setEcc_resetDue (a : Nat) (e : Ecc) : (s.setEcc a e).resetDue = s.resetDue := rfl
@[simp] theorem State.setEcc_watchdog (a : Nat) (e : Ecc) : (s.setEcc a e).watchdog = s.watchdog := rfl
@[simp] theorem State.setEcc_power (a : Nat) (e : Ecc) : (s.setEcc a e).power = s.power := rfl
@[simp] theorem State.setEcc_flash (a : Nat) (e : Ecc) : (s.setEcc a e).flash = s.flash := rfl
@[simp] theorem State.setEcc_fwRunning (a : Nat) (e : Ecc) : (s.setEcc a e).fwRunning = s.fwRunning := rfl
@[simp] theorem State.setEcc_applied (a : Nat) (e : Ecc) : (s.setEcc a e).applied = s.applied := rfl
@[simp] theorem State.setEcc_appliedImage (a : Nat) (e : Ecc) : (s.setEcc a e).appliedImage = s.appliedImage := rfl
@[simp] theorem State.setEcc_seamRetrain (a : Nat) (e : Ecc) : (s.setEcc a e).seamRetrain = s.seamRetrain := rfl
@[simp] theorem State.setEcc_domainLost (a : Nat) (e : Ecc) : (s.setEcc a e).domainLost = s.domainLost := rfl
@[simp] theorem State.setEcc_tileMap (a : Nat) (e : Ecc) : (s.setEcc a e).tileMap = s.tileMap := rfl
@[simp] theorem State.setEcc_tiles (a : Nat) (e : Ecc) : (s.setEcc a e).tiles = s.tiles := rfl
@[simp] theorem State.setEcc_chans (a : Nat) (e : Ecc) : (s.setEcc a e).chans = s.chans := rfl
@[simp] theorem State.setEcc_hbm (a : Nat) (e : Ecc) : (s.setEcc a e).hbm = s.hbm := rfl
@[simp] theorem State.setEcc_tokens (a : Nat) (e : Ecc) : (s.setEcc a e).tokens = s.tokens := rfl
@[simp] theorem State.setEcc_cxl (a : Nat) (e : Ecc) : (s.setEcc a e).cxl = s.cxl := rfl
@[simp] theorem State.setEcc_arbs (a : Nat) (e : Ecc) : (s.setEcc a e).arbs = s.arbs := rfl
@[simp] theorem State.setEcc_credits (a : Nat) (e : Ecc) : (s.setEcc a e).credits = s.credits := rfl
@[simp] theorem State.setEcc_fab (a : Nat) (e : Ecc) : (s.setEcc a e).fab = s.fab := rfl
@[simp] theorem State.setEcc_turns (a : Nat) (e : Ecc) : (s.setEcc a e).turns = s.turns := rfl
@[simp] theorem State.setEcc_mgrants (a : Nat) (e : Ecc) : (s.setEcc a e).mgrants = s.mgrants := rfl
@[simp] theorem State.setEcc_netSlots (a : Nat) (e : Ecc) : (s.setEcc a e).netSlots = s.netSlots := rfl
@[simp] theorem State.setEcc_mvTurn (a : Nat) (e : Ecc) : (s.setEcc a e).mvTurn = s.mvTurn := rfl
@[simp] theorem State.setEcc_flows (a : Nat) (e : Ecc) : (s.setEcc a e).flows = s.flows := rfl
@[simp] theorem State.setEcc_links (a : Nat) (e : Ecc) : (s.setEcc a e).links = s.links := rfl
@[simp] theorem State.setEcc_arrived (a : Nat) (e : Ecc) : (s.setEcc a e).arrived = s.arrived := rfl
@[simp] theorem State.setEcc_forward (a : Nat) (e : Ecc) : (s.setEcc a e).forward = s.forward := rfl
@[simp] theorem State.setEcc_jobs (a : Nat) (e : Ecc) : (s.setEcc a e).jobs = s.jobs := rfl
@[simp] theorem State.setEcc_aborts (a : Nat) (e : Ecc) : (s.setEcc a e).aborts = s.aborts := rfl
@[simp] theorem State.setEcc_cmds (a : Nat) (e : Ecc) : (s.setEcc a e).cmds = s.cmds := rfl
@[simp] theorem State.setEcc_nextCid (a : Nat) (e : Ecc) : (s.setEcc a e).nextCid = s.nextCid := rfl
@[simp] theorem State.setEcc_queues (a : Nat) (e : Ecc) : (s.setEcc a e).queues = s.queues := rfl
@[simp] theorem State.setEcc_qTurn (a : Nat) (e : Ecc) : (s.setEcc a e).qTurn = s.qTurn := rfl
@[simp] theorem State.setEcc_versions (a : Nat) (e : Ecc) : (s.setEcc a e).versions = s.versions := rfl
@[simp] theorem State.setEcc_glaunches (a : Nat) (e : Ecc) : (s.setEcc a e).glaunches = s.glaunches := rfl
@[simp] theorem State.setEcc_graphNo (a : Nat) (e : Ecc) : (s.setEcc a e).graphNo = s.graphNo := rfl
@[simp] theorem State.setEcc_mbox (a : Nat) (e : Ecc) : (s.setEcc a e).mbox = s.mbox := rfl
@[simp] theorem State.setEcc_mboxRegs (a : Nat) (e : Ecc) : (s.setEcc a e).mboxRegs = s.mboxRegs := rfl
@[simp] theorem State.setEcc_secure (a : Nat) (e : Ecc) : (s.setEcc a e).secure = s.secure := rfl
@[simp] theorem State.setEcc_d2hHeld (a : Nat) (e : Ecc) : (s.setEcc a e).d2hHeld = s.d2hHeld := rfl
@[simp] theorem State.setEcc_ppRun (a : Nat) (e : Ecc) : (s.setEcc a e).ppRun = s.ppRun := rfl
@[simp] theorem State.setEcc_rcvErased (a : Nat) (e : Ecc) : (s.setEcc a e).rcvErased = s.rcvErased := rfl
@[simp] theorem State.setEcc_ports (a : Nat) (e : Ecc) : (s.setEcc a e).ports = s.ports := rfl
@[simp] theorem State.setEcc_msix (a : Nat) (e : Ecc) : (s.setEcc a e).msix = s.msix := rfl
@[simp] theorem State.setEcc_msixPend (a : Nat) (e : Ecc) : (s.setEcc a e).msixPend = s.msixPend := rfl
@[simp] theorem State.setEcc_out (a : Nat) (e : Ecc) : (s.setEcc a e).out = s.out := rfl
@[simp] theorem State.setEcc_read_reg (a : Nat) (e : Ecc) (k : Nat) : (s.setEcc a e).reg k = s.reg k := rfl
@[simp] theorem State.setEcc_read_byte (a : Nat) (e : Ecc) (k : Nat) : (s.setEcc a e).byte k = s.byte k := rfl
@[simp] theorem State.setEcc_read_bytes (a : Nat) (e : Ecc) (k m : Nat) : (s.setEcc a e).bytes k m = s.bytes k m := rfl
@[simp] theorem State.setEcc_read_tile (a : Nat) (e : Ecc) (k : Nat) : (s.setEcc a e).tile k = s.tile k := rfl
@[simp] theorem State.setEcc_read_chan (a : Nat) (e : Ecc) (k : Nat) : (s.setEcc a e).chan k = s.chan k := rfl
@[simp] theorem State.setEcc_read_stack (a : Nat) (e : Ecc) (k : Nat) : (s.setEcc a e).stack k = s.stack k := rfl
@[simp] theorem State.setEcc_read_flow (a : Nat) (e : Ecc) (k : Nat) : (s.setEcc a e).flow k = s.flow k := rfl
@[simp] theorem State.setEcc_read_link (a : Nat) (e : Ecc) (k l : Nat) : (s.setEcc a e).link k l = s.link k l := rfl
@[simp] theorem State.setEcc_read_queue (a : Nat) (e : Ecc) (k : Nat) : (s.setEcc a e).queue k = s.queue k := rfl
@[simp] theorem State.setEcc_read_mail (a : Nat) (e : Ecc) (k l m : Nat) : (s.setEcc a e).mail k l m = s.mail k l m := rfl
@[simp] theorem State.setEcc_read_port (a : Nat) (e : Ecc) (k : Nat) : (s.setEcc a e).port k = s.port k := rfl
@[simp] theorem State.setEcc_read_cmd (a : Nat) (e : Ecc) (k : Nat) : (s.setEcc a e).cmd? k = s.cmd? k := rfl
@[simp] theorem State.setEcc_read_mboxReg (a : Nat) (e : Ecc) (k l : Nat) : (s.setEcc a e).mboxReg k l = s.mboxReg k l := rfl

/-! ### State.freshEcc -/

@[simp] theorem State.freshEcc_pending (a n : Nat) : (s.freshEcc a n).pending = s.pending := rfl
@[simp] theorem State.freshEcc_free (a n : Nat) : (s.freshEcc a n).free = s.free := rfl
@[simp] theorem State.freshEcc_regs (a n : Nat) : (s.freshEcc a n).regs = s.regs := rfl
@[simp] theorem State.freshEcc_mem (a n : Nat) : (s.freshEcc a n).mem = s.mem := rfl
@[simp] theorem State.freshEcc_mode (a n : Nat) : (s.freshEcc a n).mode = s.mode := rfl
@[simp] theorem State.freshEcc_alwaysOn (a n : Nat) : (s.freshEcc a n).alwaysOn = s.alwaysOn := rfl
@[simp] theorem State.freshEcc_resetDue (a n : Nat) : (s.freshEcc a n).resetDue = s.resetDue := rfl
@[simp] theorem State.freshEcc_watchdog (a n : Nat) : (s.freshEcc a n).watchdog = s.watchdog := rfl
@[simp] theorem State.freshEcc_power (a n : Nat) : (s.freshEcc a n).power = s.power := rfl
@[simp] theorem State.freshEcc_flash (a n : Nat) : (s.freshEcc a n).flash = s.flash := rfl
@[simp] theorem State.freshEcc_fwRunning (a n : Nat) : (s.freshEcc a n).fwRunning = s.fwRunning := rfl
@[simp] theorem State.freshEcc_applied (a n : Nat) : (s.freshEcc a n).applied = s.applied := rfl
@[simp] theorem State.freshEcc_appliedImage (a n : Nat) : (s.freshEcc a n).appliedImage = s.appliedImage := rfl
@[simp] theorem State.freshEcc_seamRetrain (a n : Nat) : (s.freshEcc a n).seamRetrain = s.seamRetrain := rfl
@[simp] theorem State.freshEcc_domainLost (a n : Nat) : (s.freshEcc a n).domainLost = s.domainLost := rfl
@[simp] theorem State.freshEcc_tileMap (a n : Nat) : (s.freshEcc a n).tileMap = s.tileMap := rfl
@[simp] theorem State.freshEcc_tiles (a n : Nat) : (s.freshEcc a n).tiles = s.tiles := rfl
@[simp] theorem State.freshEcc_chans (a n : Nat) : (s.freshEcc a n).chans = s.chans := rfl
@[simp] theorem State.freshEcc_hbm (a n : Nat) : (s.freshEcc a n).hbm = s.hbm := rfl
@[simp] theorem State.freshEcc_tokens (a n : Nat) : (s.freshEcc a n).tokens = s.tokens := rfl
@[simp] theorem State.freshEcc_cxl (a n : Nat) : (s.freshEcc a n).cxl = s.cxl := rfl
@[simp] theorem State.freshEcc_arbs (a n : Nat) : (s.freshEcc a n).arbs = s.arbs := rfl
@[simp] theorem State.freshEcc_credits (a n : Nat) : (s.freshEcc a n).credits = s.credits := rfl
@[simp] theorem State.freshEcc_fab (a n : Nat) : (s.freshEcc a n).fab = s.fab := rfl
@[simp] theorem State.freshEcc_turns (a n : Nat) : (s.freshEcc a n).turns = s.turns := rfl
@[simp] theorem State.freshEcc_mgrants (a n : Nat) : (s.freshEcc a n).mgrants = s.mgrants := rfl
@[simp] theorem State.freshEcc_netSlots (a n : Nat) : (s.freshEcc a n).netSlots = s.netSlots := rfl
@[simp] theorem State.freshEcc_mvTurn (a n : Nat) : (s.freshEcc a n).mvTurn = s.mvTurn := rfl
@[simp] theorem State.freshEcc_flows (a n : Nat) : (s.freshEcc a n).flows = s.flows := rfl
@[simp] theorem State.freshEcc_links (a n : Nat) : (s.freshEcc a n).links = s.links := rfl
@[simp] theorem State.freshEcc_arrived (a n : Nat) : (s.freshEcc a n).arrived = s.arrived := rfl
@[simp] theorem State.freshEcc_forward (a n : Nat) : (s.freshEcc a n).forward = s.forward := rfl
@[simp] theorem State.freshEcc_jobs (a n : Nat) : (s.freshEcc a n).jobs = s.jobs := rfl
@[simp] theorem State.freshEcc_aborts (a n : Nat) : (s.freshEcc a n).aborts = s.aborts := rfl
@[simp] theorem State.freshEcc_cmds (a n : Nat) : (s.freshEcc a n).cmds = s.cmds := rfl
@[simp] theorem State.freshEcc_nextCid (a n : Nat) : (s.freshEcc a n).nextCid = s.nextCid := rfl
@[simp] theorem State.freshEcc_queues (a n : Nat) : (s.freshEcc a n).queues = s.queues := rfl
@[simp] theorem State.freshEcc_qTurn (a n : Nat) : (s.freshEcc a n).qTurn = s.qTurn := rfl
@[simp] theorem State.freshEcc_versions (a n : Nat) : (s.freshEcc a n).versions = s.versions := rfl
@[simp] theorem State.freshEcc_glaunches (a n : Nat) : (s.freshEcc a n).glaunches = s.glaunches := rfl
@[simp] theorem State.freshEcc_graphNo (a n : Nat) : (s.freshEcc a n).graphNo = s.graphNo := rfl
@[simp] theorem State.freshEcc_mbox (a n : Nat) : (s.freshEcc a n).mbox = s.mbox := rfl
@[simp] theorem State.freshEcc_mboxRegs (a n : Nat) : (s.freshEcc a n).mboxRegs = s.mboxRegs := rfl
@[simp] theorem State.freshEcc_secure (a n : Nat) : (s.freshEcc a n).secure = s.secure := rfl
@[simp] theorem State.freshEcc_d2hHeld (a n : Nat) : (s.freshEcc a n).d2hHeld = s.d2hHeld := rfl
@[simp] theorem State.freshEcc_ppRun (a n : Nat) : (s.freshEcc a n).ppRun = s.ppRun := rfl
@[simp] theorem State.freshEcc_rcvErased (a n : Nat) : (s.freshEcc a n).rcvErased = s.rcvErased := rfl
@[simp] theorem State.freshEcc_ports (a n : Nat) : (s.freshEcc a n).ports = s.ports := rfl
@[simp] theorem State.freshEcc_msix (a n : Nat) : (s.freshEcc a n).msix = s.msix := rfl
@[simp] theorem State.freshEcc_msixPend (a n : Nat) : (s.freshEcc a n).msixPend = s.msixPend := rfl
@[simp] theorem State.freshEcc_out (a n : Nat) : (s.freshEcc a n).out = s.out := rfl
@[simp] theorem State.freshEcc_read_reg (a n : Nat) (k : Nat) : (s.freshEcc a n).reg k = s.reg k := rfl
@[simp] theorem State.freshEcc_read_byte (a n : Nat) (k : Nat) : (s.freshEcc a n).byte k = s.byte k := rfl
@[simp] theorem State.freshEcc_read_bytes (a n : Nat) (k m : Nat) : (s.freshEcc a n).bytes k m = s.bytes k m := rfl
@[simp] theorem State.freshEcc_read_tile (a n : Nat) (k : Nat) : (s.freshEcc a n).tile k = s.tile k := rfl
@[simp] theorem State.freshEcc_read_chan (a n : Nat) (k : Nat) : (s.freshEcc a n).chan k = s.chan k := rfl
@[simp] theorem State.freshEcc_read_stack (a n : Nat) (k : Nat) : (s.freshEcc a n).stack k = s.stack k := rfl
@[simp] theorem State.freshEcc_read_flow (a n : Nat) (k : Nat) : (s.freshEcc a n).flow k = s.flow k := rfl
@[simp] theorem State.freshEcc_read_link (a n : Nat) (k l : Nat) : (s.freshEcc a n).link k l = s.link k l := rfl
@[simp] theorem State.freshEcc_read_queue (a n : Nat) (k : Nat) : (s.freshEcc a n).queue k = s.queue k := rfl
@[simp] theorem State.freshEcc_read_mail (a n : Nat) (k l m : Nat) : (s.freshEcc a n).mail k l m = s.mail k l m := rfl
@[simp] theorem State.freshEcc_read_port (a n : Nat) (k : Nat) : (s.freshEcc a n).port k = s.port k := rfl
@[simp] theorem State.freshEcc_read_cmd (a n : Nat) (k : Nat) : (s.freshEcc a n).cmd? k = s.cmd? k := rfl
@[simp] theorem State.freshEcc_read_mboxReg (a n : Nat) (k l : Nat) : (s.freshEcc a n).mboxReg k l = s.mboxReg k l := rfl

/-! ### State.setTile -/

@[simp] theorem State.setTile_pending (t : Nat) (x : Tile) : (s.setTile t x).pending = s.pending := rfl
@[simp] theorem State.setTile_free (t : Nat) (x : Tile) : (s.setTile t x).free = s.free := rfl
@[simp] theorem State.setTile_regs (t : Nat) (x : Tile) : (s.setTile t x).regs = s.regs := rfl
@[simp] theorem State.setTile_mem (t : Nat) (x : Tile) : (s.setTile t x).mem = s.mem := rfl
@[simp] theorem State.setTile_ecc (t : Nat) (x : Tile) : (s.setTile t x).ecc = s.ecc := rfl
@[simp] theorem State.setTile_mode (t : Nat) (x : Tile) : (s.setTile t x).mode = s.mode := rfl
@[simp] theorem State.setTile_alwaysOn (t : Nat) (x : Tile) : (s.setTile t x).alwaysOn = s.alwaysOn := rfl
@[simp] theorem State.setTile_resetDue (t : Nat) (x : Tile) : (s.setTile t x).resetDue = s.resetDue := rfl
@[simp] theorem State.setTile_watchdog (t : Nat) (x : Tile) : (s.setTile t x).watchdog = s.watchdog := rfl
@[simp] theorem State.setTile_power (t : Nat) (x : Tile) : (s.setTile t x).power = s.power := rfl
@[simp] theorem State.setTile_flash (t : Nat) (x : Tile) : (s.setTile t x).flash = s.flash := rfl
@[simp] theorem State.setTile_fwRunning (t : Nat) (x : Tile) : (s.setTile t x).fwRunning = s.fwRunning := rfl
@[simp] theorem State.setTile_applied (t : Nat) (x : Tile) : (s.setTile t x).applied = s.applied := rfl
@[simp] theorem State.setTile_appliedImage (t : Nat) (x : Tile) : (s.setTile t x).appliedImage = s.appliedImage := rfl
@[simp] theorem State.setTile_seamRetrain (t : Nat) (x : Tile) : (s.setTile t x).seamRetrain = s.seamRetrain := rfl
@[simp] theorem State.setTile_domainLost (t : Nat) (x : Tile) : (s.setTile t x).domainLost = s.domainLost := rfl
@[simp] theorem State.setTile_tileMap (t : Nat) (x : Tile) : (s.setTile t x).tileMap = s.tileMap := rfl
@[simp] theorem State.setTile_chans (t : Nat) (x : Tile) : (s.setTile t x).chans = s.chans := rfl
@[simp] theorem State.setTile_hbm (t : Nat) (x : Tile) : (s.setTile t x).hbm = s.hbm := rfl
@[simp] theorem State.setTile_tokens (t : Nat) (x : Tile) : (s.setTile t x).tokens = s.tokens := rfl
@[simp] theorem State.setTile_cxl (t : Nat) (x : Tile) : (s.setTile t x).cxl = s.cxl := rfl
@[simp] theorem State.setTile_arbs (t : Nat) (x : Tile) : (s.setTile t x).arbs = s.arbs := rfl
@[simp] theorem State.setTile_credits (t : Nat) (x : Tile) : (s.setTile t x).credits = s.credits := rfl
@[simp] theorem State.setTile_fab (t : Nat) (x : Tile) : (s.setTile t x).fab = s.fab := rfl
@[simp] theorem State.setTile_turns (t : Nat) (x : Tile) : (s.setTile t x).turns = s.turns := rfl
@[simp] theorem State.setTile_mgrants (t : Nat) (x : Tile) : (s.setTile t x).mgrants = s.mgrants := rfl
@[simp] theorem State.setTile_netSlots (t : Nat) (x : Tile) : (s.setTile t x).netSlots = s.netSlots := rfl
@[simp] theorem State.setTile_mvTurn (t : Nat) (x : Tile) : (s.setTile t x).mvTurn = s.mvTurn := rfl
@[simp] theorem State.setTile_flows (t : Nat) (x : Tile) : (s.setTile t x).flows = s.flows := rfl
@[simp] theorem State.setTile_links (t : Nat) (x : Tile) : (s.setTile t x).links = s.links := rfl
@[simp] theorem State.setTile_arrived (t : Nat) (x : Tile) : (s.setTile t x).arrived = s.arrived := rfl
@[simp] theorem State.setTile_forward (t : Nat) (x : Tile) : (s.setTile t x).forward = s.forward := rfl
@[simp] theorem State.setTile_jobs (t : Nat) (x : Tile) : (s.setTile t x).jobs = s.jobs := rfl
@[simp] theorem State.setTile_aborts (t : Nat) (x : Tile) : (s.setTile t x).aborts = s.aborts := rfl
@[simp] theorem State.setTile_cmds (t : Nat) (x : Tile) : (s.setTile t x).cmds = s.cmds := rfl
@[simp] theorem State.setTile_nextCid (t : Nat) (x : Tile) : (s.setTile t x).nextCid = s.nextCid := rfl
@[simp] theorem State.setTile_queues (t : Nat) (x : Tile) : (s.setTile t x).queues = s.queues := rfl
@[simp] theorem State.setTile_qTurn (t : Nat) (x : Tile) : (s.setTile t x).qTurn = s.qTurn := rfl
@[simp] theorem State.setTile_versions (t : Nat) (x : Tile) : (s.setTile t x).versions = s.versions := rfl
@[simp] theorem State.setTile_glaunches (t : Nat) (x : Tile) : (s.setTile t x).glaunches = s.glaunches := rfl
@[simp] theorem State.setTile_graphNo (t : Nat) (x : Tile) : (s.setTile t x).graphNo = s.graphNo := rfl
@[simp] theorem State.setTile_mbox (t : Nat) (x : Tile) : (s.setTile t x).mbox = s.mbox := rfl
@[simp] theorem State.setTile_mboxRegs (t : Nat) (x : Tile) : (s.setTile t x).mboxRegs = s.mboxRegs := rfl
@[simp] theorem State.setTile_secure (t : Nat) (x : Tile) : (s.setTile t x).secure = s.secure := rfl
@[simp] theorem State.setTile_d2hHeld (t : Nat) (x : Tile) : (s.setTile t x).d2hHeld = s.d2hHeld := rfl
@[simp] theorem State.setTile_ppRun (t : Nat) (x : Tile) : (s.setTile t x).ppRun = s.ppRun := rfl
@[simp] theorem State.setTile_rcvErased (t : Nat) (x : Tile) : (s.setTile t x).rcvErased = s.rcvErased := rfl
@[simp] theorem State.setTile_ports (t : Nat) (x : Tile) : (s.setTile t x).ports = s.ports := rfl
@[simp] theorem State.setTile_msix (t : Nat) (x : Tile) : (s.setTile t x).msix = s.msix := rfl
@[simp] theorem State.setTile_msixPend (t : Nat) (x : Tile) : (s.setTile t x).msixPend = s.msixPend := rfl
@[simp] theorem State.setTile_out (t : Nat) (x : Tile) : (s.setTile t x).out = s.out := rfl
@[simp] theorem State.setTile_read_reg (t : Nat) (x : Tile) (k : Nat) : (s.setTile t x).reg k = s.reg k := rfl
@[simp] theorem State.setTile_read_byte (t : Nat) (x : Tile) (k : Nat) : (s.setTile t x).byte k = s.byte k := rfl
@[simp] theorem State.setTile_read_bytes (t : Nat) (x : Tile) (k m : Nat) : (s.setTile t x).bytes k m = s.bytes k m := rfl
@[simp] theorem State.setTile_read_chan (t : Nat) (x : Tile) (k : Nat) : (s.setTile t x).chan k = s.chan k := rfl
@[simp] theorem State.setTile_read_stack (t : Nat) (x : Tile) (k : Nat) : (s.setTile t x).stack k = s.stack k := rfl
@[simp] theorem State.setTile_read_flow (t : Nat) (x : Tile) (k : Nat) : (s.setTile t x).flow k = s.flow k := rfl
@[simp] theorem State.setTile_read_link (t : Nat) (x : Tile) (k l : Nat) : (s.setTile t x).link k l = s.link k l := rfl
@[simp] theorem State.setTile_read_queue (t : Nat) (x : Tile) (k : Nat) : (s.setTile t x).queue k = s.queue k := rfl
@[simp] theorem State.setTile_read_mail (t : Nat) (x : Tile) (k l m : Nat) : (s.setTile t x).mail k l m = s.mail k l m := rfl
@[simp] theorem State.setTile_read_port (t : Nat) (x : Tile) (k : Nat) : (s.setTile t x).port k = s.port k := rfl
@[simp] theorem State.setTile_read_cmd (t : Nat) (x : Tile) (k : Nat) : (s.setTile t x).cmd? k = s.cmd? k := rfl
@[simp] theorem State.setTile_read_mboxReg (t : Nat) (x : Tile) (k l : Nat) : (s.setTile t x).mboxReg k l = s.mboxReg k l := rfl
@[simp] theorem State.setTile_read_eccAt (t : Nat) (x : Tile) (k : Nat) : (s.setTile t x).eccAt k = s.eccAt k := rfl

/-! ### State.setChan -/

@[simp] theorem State.setChan_pending (c : Nat) (x : Chan) : (s.setChan c x).pending = s.pending := rfl
@[simp] theorem State.setChan_free (c : Nat) (x : Chan) : (s.setChan c x).free = s.free := rfl
@[simp] theorem State.setChan_regs (c : Nat) (x : Chan) : (s.setChan c x).regs = s.regs := rfl
@[simp] theorem State.setChan_mem (c : Nat) (x : Chan) : (s.setChan c x).mem = s.mem := rfl
@[simp] theorem State.setChan_ecc (c : Nat) (x : Chan) : (s.setChan c x).ecc = s.ecc := rfl
@[simp] theorem State.setChan_mode (c : Nat) (x : Chan) : (s.setChan c x).mode = s.mode := rfl
@[simp] theorem State.setChan_alwaysOn (c : Nat) (x : Chan) : (s.setChan c x).alwaysOn = s.alwaysOn := rfl
@[simp] theorem State.setChan_resetDue (c : Nat) (x : Chan) : (s.setChan c x).resetDue = s.resetDue := rfl
@[simp] theorem State.setChan_watchdog (c : Nat) (x : Chan) : (s.setChan c x).watchdog = s.watchdog := rfl
@[simp] theorem State.setChan_power (c : Nat) (x : Chan) : (s.setChan c x).power = s.power := rfl
@[simp] theorem State.setChan_flash (c : Nat) (x : Chan) : (s.setChan c x).flash = s.flash := rfl
@[simp] theorem State.setChan_fwRunning (c : Nat) (x : Chan) : (s.setChan c x).fwRunning = s.fwRunning := rfl
@[simp] theorem State.setChan_applied (c : Nat) (x : Chan) : (s.setChan c x).applied = s.applied := rfl
@[simp] theorem State.setChan_appliedImage (c : Nat) (x : Chan) : (s.setChan c x).appliedImage = s.appliedImage := rfl
@[simp] theorem State.setChan_seamRetrain (c : Nat) (x : Chan) : (s.setChan c x).seamRetrain = s.seamRetrain := rfl
@[simp] theorem State.setChan_domainLost (c : Nat) (x : Chan) : (s.setChan c x).domainLost = s.domainLost := rfl
@[simp] theorem State.setChan_tileMap (c : Nat) (x : Chan) : (s.setChan c x).tileMap = s.tileMap := rfl
@[simp] theorem State.setChan_tiles (c : Nat) (x : Chan) : (s.setChan c x).tiles = s.tiles := rfl
@[simp] theorem State.setChan_hbm (c : Nat) (x : Chan) : (s.setChan c x).hbm = s.hbm := rfl
@[simp] theorem State.setChan_tokens (c : Nat) (x : Chan) : (s.setChan c x).tokens = s.tokens := rfl
@[simp] theorem State.setChan_cxl (c : Nat) (x : Chan) : (s.setChan c x).cxl = s.cxl := rfl
@[simp] theorem State.setChan_arbs (c : Nat) (x : Chan) : (s.setChan c x).arbs = s.arbs := rfl
@[simp] theorem State.setChan_credits (c : Nat) (x : Chan) : (s.setChan c x).credits = s.credits := rfl
@[simp] theorem State.setChan_fab (c : Nat) (x : Chan) : (s.setChan c x).fab = s.fab := rfl
@[simp] theorem State.setChan_turns (c : Nat) (x : Chan) : (s.setChan c x).turns = s.turns := rfl
@[simp] theorem State.setChan_mgrants (c : Nat) (x : Chan) : (s.setChan c x).mgrants = s.mgrants := rfl
@[simp] theorem State.setChan_netSlots (c : Nat) (x : Chan) : (s.setChan c x).netSlots = s.netSlots := rfl
@[simp] theorem State.setChan_mvTurn (c : Nat) (x : Chan) : (s.setChan c x).mvTurn = s.mvTurn := rfl
@[simp] theorem State.setChan_flows (c : Nat) (x : Chan) : (s.setChan c x).flows = s.flows := rfl
@[simp] theorem State.setChan_links (c : Nat) (x : Chan) : (s.setChan c x).links = s.links := rfl
@[simp] theorem State.setChan_arrived (c : Nat) (x : Chan) : (s.setChan c x).arrived = s.arrived := rfl
@[simp] theorem State.setChan_forward (c : Nat) (x : Chan) : (s.setChan c x).forward = s.forward := rfl
@[simp] theorem State.setChan_jobs (c : Nat) (x : Chan) : (s.setChan c x).jobs = s.jobs := rfl
@[simp] theorem State.setChan_aborts (c : Nat) (x : Chan) : (s.setChan c x).aborts = s.aborts := rfl
@[simp] theorem State.setChan_cmds (c : Nat) (x : Chan) : (s.setChan c x).cmds = s.cmds := rfl
@[simp] theorem State.setChan_nextCid (c : Nat) (x : Chan) : (s.setChan c x).nextCid = s.nextCid := rfl
@[simp] theorem State.setChan_queues (c : Nat) (x : Chan) : (s.setChan c x).queues = s.queues := rfl
@[simp] theorem State.setChan_qTurn (c : Nat) (x : Chan) : (s.setChan c x).qTurn = s.qTurn := rfl
@[simp] theorem State.setChan_versions (c : Nat) (x : Chan) : (s.setChan c x).versions = s.versions := rfl
@[simp] theorem State.setChan_glaunches (c : Nat) (x : Chan) : (s.setChan c x).glaunches = s.glaunches := rfl
@[simp] theorem State.setChan_graphNo (c : Nat) (x : Chan) : (s.setChan c x).graphNo = s.graphNo := rfl
@[simp] theorem State.setChan_mbox (c : Nat) (x : Chan) : (s.setChan c x).mbox = s.mbox := rfl
@[simp] theorem State.setChan_mboxRegs (c : Nat) (x : Chan) : (s.setChan c x).mboxRegs = s.mboxRegs := rfl
@[simp] theorem State.setChan_secure (c : Nat) (x : Chan) : (s.setChan c x).secure = s.secure := rfl
@[simp] theorem State.setChan_d2hHeld (c : Nat) (x : Chan) : (s.setChan c x).d2hHeld = s.d2hHeld := rfl
@[simp] theorem State.setChan_ppRun (c : Nat) (x : Chan) : (s.setChan c x).ppRun = s.ppRun := rfl
@[simp] theorem State.setChan_rcvErased (c : Nat) (x : Chan) : (s.setChan c x).rcvErased = s.rcvErased := rfl
@[simp] theorem State.setChan_ports (c : Nat) (x : Chan) : (s.setChan c x).ports = s.ports := rfl
@[simp] theorem State.setChan_msix (c : Nat) (x : Chan) : (s.setChan c x).msix = s.msix := rfl
@[simp] theorem State.setChan_msixPend (c : Nat) (x : Chan) : (s.setChan c x).msixPend = s.msixPend := rfl
@[simp] theorem State.setChan_out (c : Nat) (x : Chan) : (s.setChan c x).out = s.out := rfl
@[simp] theorem State.setChan_read_reg (c : Nat) (x : Chan) (k : Nat) : (s.setChan c x).reg k = s.reg k := rfl
@[simp] theorem State.setChan_read_byte (c : Nat) (x : Chan) (k : Nat) : (s.setChan c x).byte k = s.byte k := rfl
@[simp] theorem State.setChan_read_bytes (c : Nat) (x : Chan) (k m : Nat) : (s.setChan c x).bytes k m = s.bytes k m := rfl
@[simp] theorem State.setChan_read_tile (c : Nat) (x : Chan) (k : Nat) : (s.setChan c x).tile k = s.tile k := rfl
@[simp] theorem State.setChan_read_stack (c : Nat) (x : Chan) (k : Nat) : (s.setChan c x).stack k = s.stack k := rfl
@[simp] theorem State.setChan_read_flow (c : Nat) (x : Chan) (k : Nat) : (s.setChan c x).flow k = s.flow k := rfl
@[simp] theorem State.setChan_read_link (c : Nat) (x : Chan) (k l : Nat) : (s.setChan c x).link k l = s.link k l := rfl
@[simp] theorem State.setChan_read_queue (c : Nat) (x : Chan) (k : Nat) : (s.setChan c x).queue k = s.queue k := rfl
@[simp] theorem State.setChan_read_mail (c : Nat) (x : Chan) (k l m : Nat) : (s.setChan c x).mail k l m = s.mail k l m := rfl
@[simp] theorem State.setChan_read_port (c : Nat) (x : Chan) (k : Nat) : (s.setChan c x).port k = s.port k := rfl
@[simp] theorem State.setChan_read_cmd (c : Nat) (x : Chan) (k : Nat) : (s.setChan c x).cmd? k = s.cmd? k := rfl
@[simp] theorem State.setChan_read_mboxReg (c : Nat) (x : Chan) (k l : Nat) : (s.setChan c x).mboxReg k l = s.mboxReg k l := rfl
@[simp] theorem State.setChan_read_eccAt (c : Nat) (x : Chan) (k : Nat) : (s.setChan c x).eccAt k = s.eccAt k := rfl

/-! ### State.setStack -/

@[simp] theorem State.setStack_pending (i : Nat) (x : Stack) : (s.setStack i x).pending = s.pending := rfl
@[simp] theorem State.setStack_free (i : Nat) (x : Stack) : (s.setStack i x).free = s.free := rfl
@[simp] theorem State.setStack_regs (i : Nat) (x : Stack) : (s.setStack i x).regs = s.regs := rfl
@[simp] theorem State.setStack_mem (i : Nat) (x : Stack) : (s.setStack i x).mem = s.mem := rfl
@[simp] theorem State.setStack_ecc (i : Nat) (x : Stack) : (s.setStack i x).ecc = s.ecc := rfl
@[simp] theorem State.setStack_mode (i : Nat) (x : Stack) : (s.setStack i x).mode = s.mode := rfl
@[simp] theorem State.setStack_alwaysOn (i : Nat) (x : Stack) : (s.setStack i x).alwaysOn = s.alwaysOn := rfl
@[simp] theorem State.setStack_resetDue (i : Nat) (x : Stack) : (s.setStack i x).resetDue = s.resetDue := rfl
@[simp] theorem State.setStack_watchdog (i : Nat) (x : Stack) : (s.setStack i x).watchdog = s.watchdog := rfl
@[simp] theorem State.setStack_power (i : Nat) (x : Stack) : (s.setStack i x).power = s.power := rfl
@[simp] theorem State.setStack_flash (i : Nat) (x : Stack) : (s.setStack i x).flash = s.flash := rfl
@[simp] theorem State.setStack_fwRunning (i : Nat) (x : Stack) : (s.setStack i x).fwRunning = s.fwRunning := rfl
@[simp] theorem State.setStack_applied (i : Nat) (x : Stack) : (s.setStack i x).applied = s.applied := rfl
@[simp] theorem State.setStack_appliedImage (i : Nat) (x : Stack) : (s.setStack i x).appliedImage = s.appliedImage := rfl
@[simp] theorem State.setStack_seamRetrain (i : Nat) (x : Stack) : (s.setStack i x).seamRetrain = s.seamRetrain := rfl
@[simp] theorem State.setStack_domainLost (i : Nat) (x : Stack) : (s.setStack i x).domainLost = s.domainLost := rfl
@[simp] theorem State.setStack_tileMap (i : Nat) (x : Stack) : (s.setStack i x).tileMap = s.tileMap := rfl
@[simp] theorem State.setStack_tiles (i : Nat) (x : Stack) : (s.setStack i x).tiles = s.tiles := rfl
@[simp] theorem State.setStack_chans (i : Nat) (x : Stack) : (s.setStack i x).chans = s.chans := rfl
@[simp] theorem State.setStack_tokens (i : Nat) (x : Stack) : (s.setStack i x).tokens = s.tokens := rfl
@[simp] theorem State.setStack_cxl (i : Nat) (x : Stack) : (s.setStack i x).cxl = s.cxl := rfl
@[simp] theorem State.setStack_arbs (i : Nat) (x : Stack) : (s.setStack i x).arbs = s.arbs := rfl
@[simp] theorem State.setStack_credits (i : Nat) (x : Stack) : (s.setStack i x).credits = s.credits := rfl
@[simp] theorem State.setStack_fab (i : Nat) (x : Stack) : (s.setStack i x).fab = s.fab := rfl
@[simp] theorem State.setStack_turns (i : Nat) (x : Stack) : (s.setStack i x).turns = s.turns := rfl
@[simp] theorem State.setStack_mgrants (i : Nat) (x : Stack) : (s.setStack i x).mgrants = s.mgrants := rfl
@[simp] theorem State.setStack_netSlots (i : Nat) (x : Stack) : (s.setStack i x).netSlots = s.netSlots := rfl
@[simp] theorem State.setStack_mvTurn (i : Nat) (x : Stack) : (s.setStack i x).mvTurn = s.mvTurn := rfl
@[simp] theorem State.setStack_flows (i : Nat) (x : Stack) : (s.setStack i x).flows = s.flows := rfl
@[simp] theorem State.setStack_links (i : Nat) (x : Stack) : (s.setStack i x).links = s.links := rfl
@[simp] theorem State.setStack_arrived (i : Nat) (x : Stack) : (s.setStack i x).arrived = s.arrived := rfl
@[simp] theorem State.setStack_forward (i : Nat) (x : Stack) : (s.setStack i x).forward = s.forward := rfl
@[simp] theorem State.setStack_jobs (i : Nat) (x : Stack) : (s.setStack i x).jobs = s.jobs := rfl
@[simp] theorem State.setStack_aborts (i : Nat) (x : Stack) : (s.setStack i x).aborts = s.aborts := rfl
@[simp] theorem State.setStack_cmds (i : Nat) (x : Stack) : (s.setStack i x).cmds = s.cmds := rfl
@[simp] theorem State.setStack_nextCid (i : Nat) (x : Stack) : (s.setStack i x).nextCid = s.nextCid := rfl
@[simp] theorem State.setStack_queues (i : Nat) (x : Stack) : (s.setStack i x).queues = s.queues := rfl
@[simp] theorem State.setStack_qTurn (i : Nat) (x : Stack) : (s.setStack i x).qTurn = s.qTurn := rfl
@[simp] theorem State.setStack_versions (i : Nat) (x : Stack) : (s.setStack i x).versions = s.versions := rfl
@[simp] theorem State.setStack_glaunches (i : Nat) (x : Stack) : (s.setStack i x).glaunches = s.glaunches := rfl
@[simp] theorem State.setStack_graphNo (i : Nat) (x : Stack) : (s.setStack i x).graphNo = s.graphNo := rfl
@[simp] theorem State.setStack_mbox (i : Nat) (x : Stack) : (s.setStack i x).mbox = s.mbox := rfl
@[simp] theorem State.setStack_mboxRegs (i : Nat) (x : Stack) : (s.setStack i x).mboxRegs = s.mboxRegs := rfl
@[simp] theorem State.setStack_secure (i : Nat) (x : Stack) : (s.setStack i x).secure = s.secure := rfl
@[simp] theorem State.setStack_d2hHeld (i : Nat) (x : Stack) : (s.setStack i x).d2hHeld = s.d2hHeld := rfl
@[simp] theorem State.setStack_ppRun (i : Nat) (x : Stack) : (s.setStack i x).ppRun = s.ppRun := rfl
@[simp] theorem State.setStack_rcvErased (i : Nat) (x : Stack) : (s.setStack i x).rcvErased = s.rcvErased := rfl
@[simp] theorem State.setStack_ports (i : Nat) (x : Stack) : (s.setStack i x).ports = s.ports := rfl
@[simp] theorem State.setStack_msix (i : Nat) (x : Stack) : (s.setStack i x).msix = s.msix := rfl
@[simp] theorem State.setStack_msixPend (i : Nat) (x : Stack) : (s.setStack i x).msixPend = s.msixPend := rfl
@[simp] theorem State.setStack_out (i : Nat) (x : Stack) : (s.setStack i x).out = s.out := rfl
@[simp] theorem State.setStack_read_reg (i : Nat) (x : Stack) (k : Nat) : (s.setStack i x).reg k = s.reg k := rfl
@[simp] theorem State.setStack_read_byte (i : Nat) (x : Stack) (k : Nat) : (s.setStack i x).byte k = s.byte k := rfl
@[simp] theorem State.setStack_read_bytes (i : Nat) (x : Stack) (k m : Nat) : (s.setStack i x).bytes k m = s.bytes k m := rfl
@[simp] theorem State.setStack_read_tile (i : Nat) (x : Stack) (k : Nat) : (s.setStack i x).tile k = s.tile k := rfl
@[simp] theorem State.setStack_read_chan (i : Nat) (x : Stack) (k : Nat) : (s.setStack i x).chan k = s.chan k := rfl
@[simp] theorem State.setStack_read_flow (i : Nat) (x : Stack) (k : Nat) : (s.setStack i x).flow k = s.flow k := rfl
@[simp] theorem State.setStack_read_link (i : Nat) (x : Stack) (k l : Nat) : (s.setStack i x).link k l = s.link k l := rfl
@[simp] theorem State.setStack_read_queue (i : Nat) (x : Stack) (k : Nat) : (s.setStack i x).queue k = s.queue k := rfl
@[simp] theorem State.setStack_read_mail (i : Nat) (x : Stack) (k l m : Nat) : (s.setStack i x).mail k l m = s.mail k l m := rfl
@[simp] theorem State.setStack_read_port (i : Nat) (x : Stack) (k : Nat) : (s.setStack i x).port k = s.port k := rfl
@[simp] theorem State.setStack_read_cmd (i : Nat) (x : Stack) (k : Nat) : (s.setStack i x).cmd? k = s.cmd? k := rfl
@[simp] theorem State.setStack_read_mboxReg (i : Nat) (x : Stack) (k l : Nat) : (s.setStack i x).mboxReg k l = s.mboxReg k l := rfl
@[simp] theorem State.setStack_read_eccAt (i : Nat) (x : Stack) (k : Nat) : (s.setStack i x).eccAt k = s.eccAt k := rfl

/-! ### State.setFlow -/

@[simp] theorem State.setFlow_pending (i : Nat) (x : Flow) : (s.setFlow i x).pending = s.pending := rfl
@[simp] theorem State.setFlow_free (i : Nat) (x : Flow) : (s.setFlow i x).free = s.free := rfl
@[simp] theorem State.setFlow_regs (i : Nat) (x : Flow) : (s.setFlow i x).regs = s.regs := rfl
@[simp] theorem State.setFlow_mem (i : Nat) (x : Flow) : (s.setFlow i x).mem = s.mem := rfl
@[simp] theorem State.setFlow_ecc (i : Nat) (x : Flow) : (s.setFlow i x).ecc = s.ecc := rfl
@[simp] theorem State.setFlow_mode (i : Nat) (x : Flow) : (s.setFlow i x).mode = s.mode := rfl
@[simp] theorem State.setFlow_alwaysOn (i : Nat) (x : Flow) : (s.setFlow i x).alwaysOn = s.alwaysOn := rfl
@[simp] theorem State.setFlow_resetDue (i : Nat) (x : Flow) : (s.setFlow i x).resetDue = s.resetDue := rfl
@[simp] theorem State.setFlow_watchdog (i : Nat) (x : Flow) : (s.setFlow i x).watchdog = s.watchdog := rfl
@[simp] theorem State.setFlow_power (i : Nat) (x : Flow) : (s.setFlow i x).power = s.power := rfl
@[simp] theorem State.setFlow_flash (i : Nat) (x : Flow) : (s.setFlow i x).flash = s.flash := rfl
@[simp] theorem State.setFlow_fwRunning (i : Nat) (x : Flow) : (s.setFlow i x).fwRunning = s.fwRunning := rfl
@[simp] theorem State.setFlow_applied (i : Nat) (x : Flow) : (s.setFlow i x).applied = s.applied := rfl
@[simp] theorem State.setFlow_appliedImage (i : Nat) (x : Flow) : (s.setFlow i x).appliedImage = s.appliedImage := rfl
@[simp] theorem State.setFlow_seamRetrain (i : Nat) (x : Flow) : (s.setFlow i x).seamRetrain = s.seamRetrain := rfl
@[simp] theorem State.setFlow_domainLost (i : Nat) (x : Flow) : (s.setFlow i x).domainLost = s.domainLost := rfl
@[simp] theorem State.setFlow_tileMap (i : Nat) (x : Flow) : (s.setFlow i x).tileMap = s.tileMap := rfl
@[simp] theorem State.setFlow_tiles (i : Nat) (x : Flow) : (s.setFlow i x).tiles = s.tiles := rfl
@[simp] theorem State.setFlow_chans (i : Nat) (x : Flow) : (s.setFlow i x).chans = s.chans := rfl
@[simp] theorem State.setFlow_hbm (i : Nat) (x : Flow) : (s.setFlow i x).hbm = s.hbm := rfl
@[simp] theorem State.setFlow_tokens (i : Nat) (x : Flow) : (s.setFlow i x).tokens = s.tokens := rfl
@[simp] theorem State.setFlow_cxl (i : Nat) (x : Flow) : (s.setFlow i x).cxl = s.cxl := rfl
@[simp] theorem State.setFlow_arbs (i : Nat) (x : Flow) : (s.setFlow i x).arbs = s.arbs := rfl
@[simp] theorem State.setFlow_credits (i : Nat) (x : Flow) : (s.setFlow i x).credits = s.credits := rfl
@[simp] theorem State.setFlow_fab (i : Nat) (x : Flow) : (s.setFlow i x).fab = s.fab := rfl
@[simp] theorem State.setFlow_turns (i : Nat) (x : Flow) : (s.setFlow i x).turns = s.turns := rfl
@[simp] theorem State.setFlow_mgrants (i : Nat) (x : Flow) : (s.setFlow i x).mgrants = s.mgrants := rfl
@[simp] theorem State.setFlow_netSlots (i : Nat) (x : Flow) : (s.setFlow i x).netSlots = s.netSlots := rfl
@[simp] theorem State.setFlow_mvTurn (i : Nat) (x : Flow) : (s.setFlow i x).mvTurn = s.mvTurn := rfl
@[simp] theorem State.setFlow_links (i : Nat) (x : Flow) : (s.setFlow i x).links = s.links := rfl
@[simp] theorem State.setFlow_arrived (i : Nat) (x : Flow) : (s.setFlow i x).arrived = s.arrived := rfl
@[simp] theorem State.setFlow_forward (i : Nat) (x : Flow) : (s.setFlow i x).forward = s.forward := rfl
@[simp] theorem State.setFlow_jobs (i : Nat) (x : Flow) : (s.setFlow i x).jobs = s.jobs := rfl
@[simp] theorem State.setFlow_aborts (i : Nat) (x : Flow) : (s.setFlow i x).aborts = s.aborts := rfl
@[simp] theorem State.setFlow_cmds (i : Nat) (x : Flow) : (s.setFlow i x).cmds = s.cmds := rfl
@[simp] theorem State.setFlow_nextCid (i : Nat) (x : Flow) : (s.setFlow i x).nextCid = s.nextCid := rfl
@[simp] theorem State.setFlow_queues (i : Nat) (x : Flow) : (s.setFlow i x).queues = s.queues := rfl
@[simp] theorem State.setFlow_qTurn (i : Nat) (x : Flow) : (s.setFlow i x).qTurn = s.qTurn := rfl
@[simp] theorem State.setFlow_versions (i : Nat) (x : Flow) : (s.setFlow i x).versions = s.versions := rfl
@[simp] theorem State.setFlow_glaunches (i : Nat) (x : Flow) : (s.setFlow i x).glaunches = s.glaunches := rfl
@[simp] theorem State.setFlow_graphNo (i : Nat) (x : Flow) : (s.setFlow i x).graphNo = s.graphNo := rfl
@[simp] theorem State.setFlow_mbox (i : Nat) (x : Flow) : (s.setFlow i x).mbox = s.mbox := rfl
@[simp] theorem State.setFlow_mboxRegs (i : Nat) (x : Flow) : (s.setFlow i x).mboxRegs = s.mboxRegs := rfl
@[simp] theorem State.setFlow_secure (i : Nat) (x : Flow) : (s.setFlow i x).secure = s.secure := rfl
@[simp] theorem State.setFlow_d2hHeld (i : Nat) (x : Flow) : (s.setFlow i x).d2hHeld = s.d2hHeld := rfl
@[simp] theorem State.setFlow_ppRun (i : Nat) (x : Flow) : (s.setFlow i x).ppRun = s.ppRun := rfl
@[simp] theorem State.setFlow_rcvErased (i : Nat) (x : Flow) : (s.setFlow i x).rcvErased = s.rcvErased := rfl
@[simp] theorem State.setFlow_ports (i : Nat) (x : Flow) : (s.setFlow i x).ports = s.ports := rfl
@[simp] theorem State.setFlow_msix (i : Nat) (x : Flow) : (s.setFlow i x).msix = s.msix := rfl
@[simp] theorem State.setFlow_msixPend (i : Nat) (x : Flow) : (s.setFlow i x).msixPend = s.msixPend := rfl
@[simp] theorem State.setFlow_out (i : Nat) (x : Flow) : (s.setFlow i x).out = s.out := rfl
@[simp] theorem State.setFlow_read_reg (i : Nat) (x : Flow) (k : Nat) : (s.setFlow i x).reg k = s.reg k := rfl
@[simp] theorem State.setFlow_read_byte (i : Nat) (x : Flow) (k : Nat) : (s.setFlow i x).byte k = s.byte k := rfl
@[simp] theorem State.setFlow_read_bytes (i : Nat) (x : Flow) (k m : Nat) : (s.setFlow i x).bytes k m = s.bytes k m := rfl
@[simp] theorem State.setFlow_read_tile (i : Nat) (x : Flow) (k : Nat) : (s.setFlow i x).tile k = s.tile k := rfl
@[simp] theorem State.setFlow_read_chan (i : Nat) (x : Flow) (k : Nat) : (s.setFlow i x).chan k = s.chan k := rfl
@[simp] theorem State.setFlow_read_stack (i : Nat) (x : Flow) (k : Nat) : (s.setFlow i x).stack k = s.stack k := rfl
@[simp] theorem State.setFlow_read_link (i : Nat) (x : Flow) (k l : Nat) : (s.setFlow i x).link k l = s.link k l := rfl
@[simp] theorem State.setFlow_read_queue (i : Nat) (x : Flow) (k : Nat) : (s.setFlow i x).queue k = s.queue k := rfl
@[simp] theorem State.setFlow_read_mail (i : Nat) (x : Flow) (k l m : Nat) : (s.setFlow i x).mail k l m = s.mail k l m := rfl
@[simp] theorem State.setFlow_read_port (i : Nat) (x : Flow) (k : Nat) : (s.setFlow i x).port k = s.port k := rfl
@[simp] theorem State.setFlow_read_cmd (i : Nat) (x : Flow) (k : Nat) : (s.setFlow i x).cmd? k = s.cmd? k := rfl
@[simp] theorem State.setFlow_read_mboxReg (i : Nat) (x : Flow) (k l : Nat) : (s.setFlow i x).mboxReg k l = s.mboxReg k l := rfl
@[simp] theorem State.setFlow_read_eccAt (i : Nat) (x : Flow) (k : Nat) : (s.setFlow i x).eccAt k = s.eccAt k := rfl

/-! ### State.setLink -/

@[simp] theorem State.setLink_pending (p u : Nat) (x : Link) : (s.setLink p u x).pending = s.pending := rfl
@[simp] theorem State.setLink_free (p u : Nat) (x : Link) : (s.setLink p u x).free = s.free := rfl
@[simp] theorem State.setLink_regs (p u : Nat) (x : Link) : (s.setLink p u x).regs = s.regs := rfl
@[simp] theorem State.setLink_mem (p u : Nat) (x : Link) : (s.setLink p u x).mem = s.mem := rfl
@[simp] theorem State.setLink_ecc (p u : Nat) (x : Link) : (s.setLink p u x).ecc = s.ecc := rfl
@[simp] theorem State.setLink_mode (p u : Nat) (x : Link) : (s.setLink p u x).mode = s.mode := rfl
@[simp] theorem State.setLink_alwaysOn (p u : Nat) (x : Link) : (s.setLink p u x).alwaysOn = s.alwaysOn := rfl
@[simp] theorem State.setLink_resetDue (p u : Nat) (x : Link) : (s.setLink p u x).resetDue = s.resetDue := rfl
@[simp] theorem State.setLink_watchdog (p u : Nat) (x : Link) : (s.setLink p u x).watchdog = s.watchdog := rfl
@[simp] theorem State.setLink_power (p u : Nat) (x : Link) : (s.setLink p u x).power = s.power := rfl
@[simp] theorem State.setLink_flash (p u : Nat) (x : Link) : (s.setLink p u x).flash = s.flash := rfl
@[simp] theorem State.setLink_fwRunning (p u : Nat) (x : Link) : (s.setLink p u x).fwRunning = s.fwRunning := rfl
@[simp] theorem State.setLink_applied (p u : Nat) (x : Link) : (s.setLink p u x).applied = s.applied := rfl
@[simp] theorem State.setLink_appliedImage (p u : Nat) (x : Link) : (s.setLink p u x).appliedImage = s.appliedImage := rfl
@[simp] theorem State.setLink_seamRetrain (p u : Nat) (x : Link) : (s.setLink p u x).seamRetrain = s.seamRetrain := rfl
@[simp] theorem State.setLink_domainLost (p u : Nat) (x : Link) : (s.setLink p u x).domainLost = s.domainLost := rfl
@[simp] theorem State.setLink_tileMap (p u : Nat) (x : Link) : (s.setLink p u x).tileMap = s.tileMap := rfl
@[simp] theorem State.setLink_tiles (p u : Nat) (x : Link) : (s.setLink p u x).tiles = s.tiles := rfl
@[simp] theorem State.setLink_chans (p u : Nat) (x : Link) : (s.setLink p u x).chans = s.chans := rfl
@[simp] theorem State.setLink_hbm (p u : Nat) (x : Link) : (s.setLink p u x).hbm = s.hbm := rfl
@[simp] theorem State.setLink_tokens (p u : Nat) (x : Link) : (s.setLink p u x).tokens = s.tokens := rfl
@[simp] theorem State.setLink_cxl (p u : Nat) (x : Link) : (s.setLink p u x).cxl = s.cxl := rfl
@[simp] theorem State.setLink_arbs (p u : Nat) (x : Link) : (s.setLink p u x).arbs = s.arbs := rfl
@[simp] theorem State.setLink_credits (p u : Nat) (x : Link) : (s.setLink p u x).credits = s.credits := rfl
@[simp] theorem State.setLink_fab (p u : Nat) (x : Link) : (s.setLink p u x).fab = s.fab := rfl
@[simp] theorem State.setLink_turns (p u : Nat) (x : Link) : (s.setLink p u x).turns = s.turns := rfl
@[simp] theorem State.setLink_mgrants (p u : Nat) (x : Link) : (s.setLink p u x).mgrants = s.mgrants := rfl
@[simp] theorem State.setLink_netSlots (p u : Nat) (x : Link) : (s.setLink p u x).netSlots = s.netSlots := rfl
@[simp] theorem State.setLink_mvTurn (p u : Nat) (x : Link) : (s.setLink p u x).mvTurn = s.mvTurn := rfl
@[simp] theorem State.setLink_flows (p u : Nat) (x : Link) : (s.setLink p u x).flows = s.flows := rfl
@[simp] theorem State.setLink_arrived (p u : Nat) (x : Link) : (s.setLink p u x).arrived = s.arrived := rfl
@[simp] theorem State.setLink_forward (p u : Nat) (x : Link) : (s.setLink p u x).forward = s.forward := rfl
@[simp] theorem State.setLink_jobs (p u : Nat) (x : Link) : (s.setLink p u x).jobs = s.jobs := rfl
@[simp] theorem State.setLink_aborts (p u : Nat) (x : Link) : (s.setLink p u x).aborts = s.aborts := rfl
@[simp] theorem State.setLink_cmds (p u : Nat) (x : Link) : (s.setLink p u x).cmds = s.cmds := rfl
@[simp] theorem State.setLink_nextCid (p u : Nat) (x : Link) : (s.setLink p u x).nextCid = s.nextCid := rfl
@[simp] theorem State.setLink_queues (p u : Nat) (x : Link) : (s.setLink p u x).queues = s.queues := rfl
@[simp] theorem State.setLink_qTurn (p u : Nat) (x : Link) : (s.setLink p u x).qTurn = s.qTurn := rfl
@[simp] theorem State.setLink_versions (p u : Nat) (x : Link) : (s.setLink p u x).versions = s.versions := rfl
@[simp] theorem State.setLink_glaunches (p u : Nat) (x : Link) : (s.setLink p u x).glaunches = s.glaunches := rfl
@[simp] theorem State.setLink_graphNo (p u : Nat) (x : Link) : (s.setLink p u x).graphNo = s.graphNo := rfl
@[simp] theorem State.setLink_mbox (p u : Nat) (x : Link) : (s.setLink p u x).mbox = s.mbox := rfl
@[simp] theorem State.setLink_mboxRegs (p u : Nat) (x : Link) : (s.setLink p u x).mboxRegs = s.mboxRegs := rfl
@[simp] theorem State.setLink_secure (p u : Nat) (x : Link) : (s.setLink p u x).secure = s.secure := rfl
@[simp] theorem State.setLink_d2hHeld (p u : Nat) (x : Link) : (s.setLink p u x).d2hHeld = s.d2hHeld := rfl
@[simp] theorem State.setLink_ppRun (p u : Nat) (x : Link) : (s.setLink p u x).ppRun = s.ppRun := rfl
@[simp] theorem State.setLink_rcvErased (p u : Nat) (x : Link) : (s.setLink p u x).rcvErased = s.rcvErased := rfl
@[simp] theorem State.setLink_ports (p u : Nat) (x : Link) : (s.setLink p u x).ports = s.ports := rfl
@[simp] theorem State.setLink_msix (p u : Nat) (x : Link) : (s.setLink p u x).msix = s.msix := rfl
@[simp] theorem State.setLink_msixPend (p u : Nat) (x : Link) : (s.setLink p u x).msixPend = s.msixPend := rfl
@[simp] theorem State.setLink_out (p u : Nat) (x : Link) : (s.setLink p u x).out = s.out := rfl
@[simp] theorem State.setLink_read_reg (p u : Nat) (x : Link) (k : Nat) : (s.setLink p u x).reg k = s.reg k := rfl
@[simp] theorem State.setLink_read_byte (p u : Nat) (x : Link) (k : Nat) : (s.setLink p u x).byte k = s.byte k := rfl
@[simp] theorem State.setLink_read_bytes (p u : Nat) (x : Link) (k m : Nat) : (s.setLink p u x).bytes k m = s.bytes k m := rfl
@[simp] theorem State.setLink_read_tile (p u : Nat) (x : Link) (k : Nat) : (s.setLink p u x).tile k = s.tile k := rfl
@[simp] theorem State.setLink_read_chan (p u : Nat) (x : Link) (k : Nat) : (s.setLink p u x).chan k = s.chan k := rfl
@[simp] theorem State.setLink_read_stack (p u : Nat) (x : Link) (k : Nat) : (s.setLink p u x).stack k = s.stack k := rfl
@[simp] theorem State.setLink_read_flow (p u : Nat) (x : Link) (k : Nat) : (s.setLink p u x).flow k = s.flow k := rfl
@[simp] theorem State.setLink_read_queue (p u : Nat) (x : Link) (k : Nat) : (s.setLink p u x).queue k = s.queue k := rfl
@[simp] theorem State.setLink_read_mail (p u : Nat) (x : Link) (k l m : Nat) : (s.setLink p u x).mail k l m = s.mail k l m := rfl
@[simp] theorem State.setLink_read_port (p u : Nat) (x : Link) (k : Nat) : (s.setLink p u x).port k = s.port k := rfl
@[simp] theorem State.setLink_read_cmd (p u : Nat) (x : Link) (k : Nat) : (s.setLink p u x).cmd? k = s.cmd? k := rfl
@[simp] theorem State.setLink_read_mboxReg (p u : Nat) (x : Link) (k l : Nat) : (s.setLink p u x).mboxReg k l = s.mboxReg k l := rfl
@[simp] theorem State.setLink_read_eccAt (p u : Nat) (x : Link) (k : Nat) : (s.setLink p u x).eccAt k = s.eccAt k := rfl

/-! ### State.setQueue -/

@[simp] theorem State.setQueue_pending (q : Nat) (x : Queue) : (s.setQueue q x).pending = s.pending := rfl
@[simp] theorem State.setQueue_free (q : Nat) (x : Queue) : (s.setQueue q x).free = s.free := rfl
@[simp] theorem State.setQueue_regs (q : Nat) (x : Queue) : (s.setQueue q x).regs = s.regs := rfl
@[simp] theorem State.setQueue_mem (q : Nat) (x : Queue) : (s.setQueue q x).mem = s.mem := rfl
@[simp] theorem State.setQueue_ecc (q : Nat) (x : Queue) : (s.setQueue q x).ecc = s.ecc := rfl
@[simp] theorem State.setQueue_mode (q : Nat) (x : Queue) : (s.setQueue q x).mode = s.mode := rfl
@[simp] theorem State.setQueue_alwaysOn (q : Nat) (x : Queue) : (s.setQueue q x).alwaysOn = s.alwaysOn := rfl
@[simp] theorem State.setQueue_resetDue (q : Nat) (x : Queue) : (s.setQueue q x).resetDue = s.resetDue := rfl
@[simp] theorem State.setQueue_watchdog (q : Nat) (x : Queue) : (s.setQueue q x).watchdog = s.watchdog := rfl
@[simp] theorem State.setQueue_power (q : Nat) (x : Queue) : (s.setQueue q x).power = s.power := rfl
@[simp] theorem State.setQueue_flash (q : Nat) (x : Queue) : (s.setQueue q x).flash = s.flash := rfl
@[simp] theorem State.setQueue_fwRunning (q : Nat) (x : Queue) : (s.setQueue q x).fwRunning = s.fwRunning := rfl
@[simp] theorem State.setQueue_applied (q : Nat) (x : Queue) : (s.setQueue q x).applied = s.applied := rfl
@[simp] theorem State.setQueue_appliedImage (q : Nat) (x : Queue) : (s.setQueue q x).appliedImage = s.appliedImage := rfl
@[simp] theorem State.setQueue_seamRetrain (q : Nat) (x : Queue) : (s.setQueue q x).seamRetrain = s.seamRetrain := rfl
@[simp] theorem State.setQueue_domainLost (q : Nat) (x : Queue) : (s.setQueue q x).domainLost = s.domainLost := rfl
@[simp] theorem State.setQueue_tileMap (q : Nat) (x : Queue) : (s.setQueue q x).tileMap = s.tileMap := rfl
@[simp] theorem State.setQueue_tiles (q : Nat) (x : Queue) : (s.setQueue q x).tiles = s.tiles := rfl
@[simp] theorem State.setQueue_chans (q : Nat) (x : Queue) : (s.setQueue q x).chans = s.chans := rfl
@[simp] theorem State.setQueue_hbm (q : Nat) (x : Queue) : (s.setQueue q x).hbm = s.hbm := rfl
@[simp] theorem State.setQueue_tokens (q : Nat) (x : Queue) : (s.setQueue q x).tokens = s.tokens := rfl
@[simp] theorem State.setQueue_cxl (q : Nat) (x : Queue) : (s.setQueue q x).cxl = s.cxl := rfl
@[simp] theorem State.setQueue_arbs (q : Nat) (x : Queue) : (s.setQueue q x).arbs = s.arbs := rfl
@[simp] theorem State.setQueue_credits (q : Nat) (x : Queue) : (s.setQueue q x).credits = s.credits := rfl
@[simp] theorem State.setQueue_fab (q : Nat) (x : Queue) : (s.setQueue q x).fab = s.fab := rfl
@[simp] theorem State.setQueue_turns (q : Nat) (x : Queue) : (s.setQueue q x).turns = s.turns := rfl
@[simp] theorem State.setQueue_mgrants (q : Nat) (x : Queue) : (s.setQueue q x).mgrants = s.mgrants := rfl
@[simp] theorem State.setQueue_netSlots (q : Nat) (x : Queue) : (s.setQueue q x).netSlots = s.netSlots := rfl
@[simp] theorem State.setQueue_mvTurn (q : Nat) (x : Queue) : (s.setQueue q x).mvTurn = s.mvTurn := rfl
@[simp] theorem State.setQueue_flows (q : Nat) (x : Queue) : (s.setQueue q x).flows = s.flows := rfl
@[simp] theorem State.setQueue_links (q : Nat) (x : Queue) : (s.setQueue q x).links = s.links := rfl
@[simp] theorem State.setQueue_arrived (q : Nat) (x : Queue) : (s.setQueue q x).arrived = s.arrived := rfl
@[simp] theorem State.setQueue_forward (q : Nat) (x : Queue) : (s.setQueue q x).forward = s.forward := rfl
@[simp] theorem State.setQueue_jobs (q : Nat) (x : Queue) : (s.setQueue q x).jobs = s.jobs := rfl
@[simp] theorem State.setQueue_aborts (q : Nat) (x : Queue) : (s.setQueue q x).aborts = s.aborts := rfl
@[simp] theorem State.setQueue_cmds (q : Nat) (x : Queue) : (s.setQueue q x).cmds = s.cmds := rfl
@[simp] theorem State.setQueue_nextCid (q : Nat) (x : Queue) : (s.setQueue q x).nextCid = s.nextCid := rfl
@[simp] theorem State.setQueue_qTurn (q : Nat) (x : Queue) : (s.setQueue q x).qTurn = s.qTurn := rfl
@[simp] theorem State.setQueue_versions (q : Nat) (x : Queue) : (s.setQueue q x).versions = s.versions := rfl
@[simp] theorem State.setQueue_glaunches (q : Nat) (x : Queue) : (s.setQueue q x).glaunches = s.glaunches := rfl
@[simp] theorem State.setQueue_graphNo (q : Nat) (x : Queue) : (s.setQueue q x).graphNo = s.graphNo := rfl
@[simp] theorem State.setQueue_mbox (q : Nat) (x : Queue) : (s.setQueue q x).mbox = s.mbox := rfl
@[simp] theorem State.setQueue_mboxRegs (q : Nat) (x : Queue) : (s.setQueue q x).mboxRegs = s.mboxRegs := rfl
@[simp] theorem State.setQueue_secure (q : Nat) (x : Queue) : (s.setQueue q x).secure = s.secure := rfl
@[simp] theorem State.setQueue_d2hHeld (q : Nat) (x : Queue) : (s.setQueue q x).d2hHeld = s.d2hHeld := rfl
@[simp] theorem State.setQueue_ppRun (q : Nat) (x : Queue) : (s.setQueue q x).ppRun = s.ppRun := rfl
@[simp] theorem State.setQueue_rcvErased (q : Nat) (x : Queue) : (s.setQueue q x).rcvErased = s.rcvErased := rfl
@[simp] theorem State.setQueue_ports (q : Nat) (x : Queue) : (s.setQueue q x).ports = s.ports := rfl
@[simp] theorem State.setQueue_msix (q : Nat) (x : Queue) : (s.setQueue q x).msix = s.msix := rfl
@[simp] theorem State.setQueue_msixPend (q : Nat) (x : Queue) : (s.setQueue q x).msixPend = s.msixPend := rfl
@[simp] theorem State.setQueue_out (q : Nat) (x : Queue) : (s.setQueue q x).out = s.out := rfl
@[simp] theorem State.setQueue_read_reg (q : Nat) (x : Queue) (k : Nat) : (s.setQueue q x).reg k = s.reg k := rfl
@[simp] theorem State.setQueue_read_byte (q : Nat) (x : Queue) (k : Nat) : (s.setQueue q x).byte k = s.byte k := rfl
@[simp] theorem State.setQueue_read_bytes (q : Nat) (x : Queue) (k m : Nat) : (s.setQueue q x).bytes k m = s.bytes k m := rfl
@[simp] theorem State.setQueue_read_tile (q : Nat) (x : Queue) (k : Nat) : (s.setQueue q x).tile k = s.tile k := rfl
@[simp] theorem State.setQueue_read_chan (q : Nat) (x : Queue) (k : Nat) : (s.setQueue q x).chan k = s.chan k := rfl
@[simp] theorem State.setQueue_read_stack (q : Nat) (x : Queue) (k : Nat) : (s.setQueue q x).stack k = s.stack k := rfl
@[simp] theorem State.setQueue_read_flow (q : Nat) (x : Queue) (k : Nat) : (s.setQueue q x).flow k = s.flow k := rfl
@[simp] theorem State.setQueue_read_link (q : Nat) (x : Queue) (k l : Nat) : (s.setQueue q x).link k l = s.link k l := rfl
@[simp] theorem State.setQueue_read_mail (q : Nat) (x : Queue) (k l m : Nat) : (s.setQueue q x).mail k l m = s.mail k l m := rfl
@[simp] theorem State.setQueue_read_port (q : Nat) (x : Queue) (k : Nat) : (s.setQueue q x).port k = s.port k := rfl
@[simp] theorem State.setQueue_read_cmd (q : Nat) (x : Queue) (k : Nat) : (s.setQueue q x).cmd? k = s.cmd? k := rfl
@[simp] theorem State.setQueue_read_mboxReg (q : Nat) (x : Queue) (k l : Nat) : (s.setQueue q x).mboxReg k l = s.mboxReg k l := rfl
@[simp] theorem State.setQueue_read_eccAt (q : Nat) (x : Queue) (k : Nat) : (s.setQueue q x).eccAt k = s.eccAt k := rfl

/-! ### State.setMail -/

@[simp] theorem State.setMail_pending (d p c : Nat) (x : Mbox) : (s.setMail d p c x).pending = s.pending := rfl
@[simp] theorem State.setMail_free (d p c : Nat) (x : Mbox) : (s.setMail d p c x).free = s.free := rfl
@[simp] theorem State.setMail_regs (d p c : Nat) (x : Mbox) : (s.setMail d p c x).regs = s.regs := rfl
@[simp] theorem State.setMail_mem (d p c : Nat) (x : Mbox) : (s.setMail d p c x).mem = s.mem := rfl
@[simp] theorem State.setMail_ecc (d p c : Nat) (x : Mbox) : (s.setMail d p c x).ecc = s.ecc := rfl
@[simp] theorem State.setMail_mode (d p c : Nat) (x : Mbox) : (s.setMail d p c x).mode = s.mode := rfl
@[simp] theorem State.setMail_alwaysOn (d p c : Nat) (x : Mbox) : (s.setMail d p c x).alwaysOn = s.alwaysOn := rfl
@[simp] theorem State.setMail_resetDue (d p c : Nat) (x : Mbox) : (s.setMail d p c x).resetDue = s.resetDue := rfl
@[simp] theorem State.setMail_watchdog (d p c : Nat) (x : Mbox) : (s.setMail d p c x).watchdog = s.watchdog := rfl
@[simp] theorem State.setMail_power (d p c : Nat) (x : Mbox) : (s.setMail d p c x).power = s.power := rfl
@[simp] theorem State.setMail_flash (d p c : Nat) (x : Mbox) : (s.setMail d p c x).flash = s.flash := rfl
@[simp] theorem State.setMail_fwRunning (d p c : Nat) (x : Mbox) : (s.setMail d p c x).fwRunning = s.fwRunning := rfl
@[simp] theorem State.setMail_applied (d p c : Nat) (x : Mbox) : (s.setMail d p c x).applied = s.applied := rfl
@[simp] theorem State.setMail_appliedImage (d p c : Nat) (x : Mbox) : (s.setMail d p c x).appliedImage = s.appliedImage := rfl
@[simp] theorem State.setMail_seamRetrain (d p c : Nat) (x : Mbox) : (s.setMail d p c x).seamRetrain = s.seamRetrain := rfl
@[simp] theorem State.setMail_domainLost (d p c : Nat) (x : Mbox) : (s.setMail d p c x).domainLost = s.domainLost := rfl
@[simp] theorem State.setMail_tileMap (d p c : Nat) (x : Mbox) : (s.setMail d p c x).tileMap = s.tileMap := rfl
@[simp] theorem State.setMail_tiles (d p c : Nat) (x : Mbox) : (s.setMail d p c x).tiles = s.tiles := rfl
@[simp] theorem State.setMail_chans (d p c : Nat) (x : Mbox) : (s.setMail d p c x).chans = s.chans := rfl
@[simp] theorem State.setMail_hbm (d p c : Nat) (x : Mbox) : (s.setMail d p c x).hbm = s.hbm := rfl
@[simp] theorem State.setMail_tokens (d p c : Nat) (x : Mbox) : (s.setMail d p c x).tokens = s.tokens := rfl
@[simp] theorem State.setMail_cxl (d p c : Nat) (x : Mbox) : (s.setMail d p c x).cxl = s.cxl := rfl
@[simp] theorem State.setMail_arbs (d p c : Nat) (x : Mbox) : (s.setMail d p c x).arbs = s.arbs := rfl
@[simp] theorem State.setMail_credits (d p c : Nat) (x : Mbox) : (s.setMail d p c x).credits = s.credits := rfl
@[simp] theorem State.setMail_fab (d p c : Nat) (x : Mbox) : (s.setMail d p c x).fab = s.fab := rfl
@[simp] theorem State.setMail_turns (d p c : Nat) (x : Mbox) : (s.setMail d p c x).turns = s.turns := rfl
@[simp] theorem State.setMail_mgrants (d p c : Nat) (x : Mbox) : (s.setMail d p c x).mgrants = s.mgrants := rfl
@[simp] theorem State.setMail_netSlots (d p c : Nat) (x : Mbox) : (s.setMail d p c x).netSlots = s.netSlots := rfl
@[simp] theorem State.setMail_mvTurn (d p c : Nat) (x : Mbox) : (s.setMail d p c x).mvTurn = s.mvTurn := rfl
@[simp] theorem State.setMail_flows (d p c : Nat) (x : Mbox) : (s.setMail d p c x).flows = s.flows := rfl
@[simp] theorem State.setMail_links (d p c : Nat) (x : Mbox) : (s.setMail d p c x).links = s.links := rfl
@[simp] theorem State.setMail_arrived (d p c : Nat) (x : Mbox) : (s.setMail d p c x).arrived = s.arrived := rfl
@[simp] theorem State.setMail_forward (d p c : Nat) (x : Mbox) : (s.setMail d p c x).forward = s.forward := rfl
@[simp] theorem State.setMail_jobs (d p c : Nat) (x : Mbox) : (s.setMail d p c x).jobs = s.jobs := rfl
@[simp] theorem State.setMail_aborts (d p c : Nat) (x : Mbox) : (s.setMail d p c x).aborts = s.aborts := rfl
@[simp] theorem State.setMail_cmds (d p c : Nat) (x : Mbox) : (s.setMail d p c x).cmds = s.cmds := rfl
@[simp] theorem State.setMail_nextCid (d p c : Nat) (x : Mbox) : (s.setMail d p c x).nextCid = s.nextCid := rfl
@[simp] theorem State.setMail_queues (d p c : Nat) (x : Mbox) : (s.setMail d p c x).queues = s.queues := rfl
@[simp] theorem State.setMail_qTurn (d p c : Nat) (x : Mbox) : (s.setMail d p c x).qTurn = s.qTurn := rfl
@[simp] theorem State.setMail_versions (d p c : Nat) (x : Mbox) : (s.setMail d p c x).versions = s.versions := rfl
@[simp] theorem State.setMail_glaunches (d p c : Nat) (x : Mbox) : (s.setMail d p c x).glaunches = s.glaunches := rfl
@[simp] theorem State.setMail_graphNo (d p c : Nat) (x : Mbox) : (s.setMail d p c x).graphNo = s.graphNo := rfl
@[simp] theorem State.setMail_mboxRegs (d p c : Nat) (x : Mbox) : (s.setMail d p c x).mboxRegs = s.mboxRegs := rfl
@[simp] theorem State.setMail_secure (d p c : Nat) (x : Mbox) : (s.setMail d p c x).secure = s.secure := rfl
@[simp] theorem State.setMail_d2hHeld (d p c : Nat) (x : Mbox) : (s.setMail d p c x).d2hHeld = s.d2hHeld := rfl
@[simp] theorem State.setMail_ppRun (d p c : Nat) (x : Mbox) : (s.setMail d p c x).ppRun = s.ppRun := rfl
@[simp] theorem State.setMail_rcvErased (d p c : Nat) (x : Mbox) : (s.setMail d p c x).rcvErased = s.rcvErased := rfl
@[simp] theorem State.setMail_ports (d p c : Nat) (x : Mbox) : (s.setMail d p c x).ports = s.ports := rfl
@[simp] theorem State.setMail_msix (d p c : Nat) (x : Mbox) : (s.setMail d p c x).msix = s.msix := rfl
@[simp] theorem State.setMail_msixPend (d p c : Nat) (x : Mbox) : (s.setMail d p c x).msixPend = s.msixPend := rfl
@[simp] theorem State.setMail_out (d p c : Nat) (x : Mbox) : (s.setMail d p c x).out = s.out := rfl
@[simp] theorem State.setMail_read_reg (d p c : Nat) (x : Mbox) (k : Nat) : (s.setMail d p c x).reg k = s.reg k := rfl
@[simp] theorem State.setMail_read_byte (d p c : Nat) (x : Mbox) (k : Nat) : (s.setMail d p c x).byte k = s.byte k := rfl
@[simp] theorem State.setMail_read_bytes (d p c : Nat) (x : Mbox) (k m : Nat) : (s.setMail d p c x).bytes k m = s.bytes k m := rfl
@[simp] theorem State.setMail_read_tile (d p c : Nat) (x : Mbox) (k : Nat) : (s.setMail d p c x).tile k = s.tile k := rfl
@[simp] theorem State.setMail_read_chan (d p c : Nat) (x : Mbox) (k : Nat) : (s.setMail d p c x).chan k = s.chan k := rfl
@[simp] theorem State.setMail_read_stack (d p c : Nat) (x : Mbox) (k : Nat) : (s.setMail d p c x).stack k = s.stack k := rfl
@[simp] theorem State.setMail_read_flow (d p c : Nat) (x : Mbox) (k : Nat) : (s.setMail d p c x).flow k = s.flow k := rfl
@[simp] theorem State.setMail_read_link (d p c : Nat) (x : Mbox) (k l : Nat) : (s.setMail d p c x).link k l = s.link k l := rfl
@[simp] theorem State.setMail_read_queue (d p c : Nat) (x : Mbox) (k : Nat) : (s.setMail d p c x).queue k = s.queue k := rfl
@[simp] theorem State.setMail_read_port (d p c : Nat) (x : Mbox) (k : Nat) : (s.setMail d p c x).port k = s.port k := rfl
@[simp] theorem State.setMail_read_cmd (d p c : Nat) (x : Mbox) (k : Nat) : (s.setMail d p c x).cmd? k = s.cmd? k := rfl
@[simp] theorem State.setMail_read_mboxReg (d p c : Nat) (x : Mbox) (k l : Nat) : (s.setMail d p c x).mboxReg k l = s.mboxReg k l := rfl
@[simp] theorem State.setMail_read_eccAt (d p c : Nat) (x : Mbox) (k : Nat) : (s.setMail d p c x).eccAt k = s.eccAt k := rfl

/-! ### State.setPort -/

@[simp] theorem State.setPort_pending (p : Nat) (x : HostPort) : (s.setPort p x).pending = s.pending := rfl
@[simp] theorem State.setPort_free (p : Nat) (x : HostPort) : (s.setPort p x).free = s.free := rfl
@[simp] theorem State.setPort_regs (p : Nat) (x : HostPort) : (s.setPort p x).regs = s.regs := rfl
@[simp] theorem State.setPort_mem (p : Nat) (x : HostPort) : (s.setPort p x).mem = s.mem := rfl
@[simp] theorem State.setPort_ecc (p : Nat) (x : HostPort) : (s.setPort p x).ecc = s.ecc := rfl
@[simp] theorem State.setPort_mode (p : Nat) (x : HostPort) : (s.setPort p x).mode = s.mode := rfl
@[simp] theorem State.setPort_alwaysOn (p : Nat) (x : HostPort) : (s.setPort p x).alwaysOn = s.alwaysOn := rfl
@[simp] theorem State.setPort_resetDue (p : Nat) (x : HostPort) : (s.setPort p x).resetDue = s.resetDue := rfl
@[simp] theorem State.setPort_watchdog (p : Nat) (x : HostPort) : (s.setPort p x).watchdog = s.watchdog := rfl
@[simp] theorem State.setPort_power (p : Nat) (x : HostPort) : (s.setPort p x).power = s.power := rfl
@[simp] theorem State.setPort_flash (p : Nat) (x : HostPort) : (s.setPort p x).flash = s.flash := rfl
@[simp] theorem State.setPort_fwRunning (p : Nat) (x : HostPort) : (s.setPort p x).fwRunning = s.fwRunning := rfl
@[simp] theorem State.setPort_applied (p : Nat) (x : HostPort) : (s.setPort p x).applied = s.applied := rfl
@[simp] theorem State.setPort_appliedImage (p : Nat) (x : HostPort) : (s.setPort p x).appliedImage = s.appliedImage := rfl
@[simp] theorem State.setPort_seamRetrain (p : Nat) (x : HostPort) : (s.setPort p x).seamRetrain = s.seamRetrain := rfl
@[simp] theorem State.setPort_domainLost (p : Nat) (x : HostPort) : (s.setPort p x).domainLost = s.domainLost := rfl
@[simp] theorem State.setPort_tileMap (p : Nat) (x : HostPort) : (s.setPort p x).tileMap = s.tileMap := rfl
@[simp] theorem State.setPort_tiles (p : Nat) (x : HostPort) : (s.setPort p x).tiles = s.tiles := rfl
@[simp] theorem State.setPort_chans (p : Nat) (x : HostPort) : (s.setPort p x).chans = s.chans := rfl
@[simp] theorem State.setPort_hbm (p : Nat) (x : HostPort) : (s.setPort p x).hbm = s.hbm := rfl
@[simp] theorem State.setPort_tokens (p : Nat) (x : HostPort) : (s.setPort p x).tokens = s.tokens := rfl
@[simp] theorem State.setPort_cxl (p : Nat) (x : HostPort) : (s.setPort p x).cxl = s.cxl := rfl
@[simp] theorem State.setPort_arbs (p : Nat) (x : HostPort) : (s.setPort p x).arbs = s.arbs := rfl
@[simp] theorem State.setPort_credits (p : Nat) (x : HostPort) : (s.setPort p x).credits = s.credits := rfl
@[simp] theorem State.setPort_fab (p : Nat) (x : HostPort) : (s.setPort p x).fab = s.fab := rfl
@[simp] theorem State.setPort_turns (p : Nat) (x : HostPort) : (s.setPort p x).turns = s.turns := rfl
@[simp] theorem State.setPort_mgrants (p : Nat) (x : HostPort) : (s.setPort p x).mgrants = s.mgrants := rfl
@[simp] theorem State.setPort_netSlots (p : Nat) (x : HostPort) : (s.setPort p x).netSlots = s.netSlots := rfl
@[simp] theorem State.setPort_mvTurn (p : Nat) (x : HostPort) : (s.setPort p x).mvTurn = s.mvTurn := rfl
@[simp] theorem State.setPort_flows (p : Nat) (x : HostPort) : (s.setPort p x).flows = s.flows := rfl
@[simp] theorem State.setPort_links (p : Nat) (x : HostPort) : (s.setPort p x).links = s.links := rfl
@[simp] theorem State.setPort_arrived (p : Nat) (x : HostPort) : (s.setPort p x).arrived = s.arrived := rfl
@[simp] theorem State.setPort_forward (p : Nat) (x : HostPort) : (s.setPort p x).forward = s.forward := rfl
@[simp] theorem State.setPort_jobs (p : Nat) (x : HostPort) : (s.setPort p x).jobs = s.jobs := rfl
@[simp] theorem State.setPort_aborts (p : Nat) (x : HostPort) : (s.setPort p x).aborts = s.aborts := rfl
@[simp] theorem State.setPort_cmds (p : Nat) (x : HostPort) : (s.setPort p x).cmds = s.cmds := rfl
@[simp] theorem State.setPort_nextCid (p : Nat) (x : HostPort) : (s.setPort p x).nextCid = s.nextCid := rfl
@[simp] theorem State.setPort_queues (p : Nat) (x : HostPort) : (s.setPort p x).queues = s.queues := rfl
@[simp] theorem State.setPort_qTurn (p : Nat) (x : HostPort) : (s.setPort p x).qTurn = s.qTurn := rfl
@[simp] theorem State.setPort_versions (p : Nat) (x : HostPort) : (s.setPort p x).versions = s.versions := rfl
@[simp] theorem State.setPort_glaunches (p : Nat) (x : HostPort) : (s.setPort p x).glaunches = s.glaunches := rfl
@[simp] theorem State.setPort_graphNo (p : Nat) (x : HostPort) : (s.setPort p x).graphNo = s.graphNo := rfl
@[simp] theorem State.setPort_mbox (p : Nat) (x : HostPort) : (s.setPort p x).mbox = s.mbox := rfl
@[simp] theorem State.setPort_mboxRegs (p : Nat) (x : HostPort) : (s.setPort p x).mboxRegs = s.mboxRegs := rfl
@[simp] theorem State.setPort_secure (p : Nat) (x : HostPort) : (s.setPort p x).secure = s.secure := rfl
@[simp] theorem State.setPort_d2hHeld (p : Nat) (x : HostPort) : (s.setPort p x).d2hHeld = s.d2hHeld := rfl
@[simp] theorem State.setPort_ppRun (p : Nat) (x : HostPort) : (s.setPort p x).ppRun = s.ppRun := rfl
@[simp] theorem State.setPort_rcvErased (p : Nat) (x : HostPort) : (s.setPort p x).rcvErased = s.rcvErased := rfl
@[simp] theorem State.setPort_msix (p : Nat) (x : HostPort) : (s.setPort p x).msix = s.msix := rfl
@[simp] theorem State.setPort_msixPend (p : Nat) (x : HostPort) : (s.setPort p x).msixPend = s.msixPend := rfl
@[simp] theorem State.setPort_out (p : Nat) (x : HostPort) : (s.setPort p x).out = s.out := rfl
@[simp] theorem State.setPort_read_reg (p : Nat) (x : HostPort) (k : Nat) : (s.setPort p x).reg k = s.reg k := rfl
@[simp] theorem State.setPort_read_byte (p : Nat) (x : HostPort) (k : Nat) : (s.setPort p x).byte k = s.byte k := rfl
@[simp] theorem State.setPort_read_bytes (p : Nat) (x : HostPort) (k m : Nat) : (s.setPort p x).bytes k m = s.bytes k m := rfl
@[simp] theorem State.setPort_read_tile (p : Nat) (x : HostPort) (k : Nat) : (s.setPort p x).tile k = s.tile k := rfl
@[simp] theorem State.setPort_read_chan (p : Nat) (x : HostPort) (k : Nat) : (s.setPort p x).chan k = s.chan k := rfl
@[simp] theorem State.setPort_read_stack (p : Nat) (x : HostPort) (k : Nat) : (s.setPort p x).stack k = s.stack k := rfl
@[simp] theorem State.setPort_read_flow (p : Nat) (x : HostPort) (k : Nat) : (s.setPort p x).flow k = s.flow k := rfl
@[simp] theorem State.setPort_read_link (p : Nat) (x : HostPort) (k l : Nat) : (s.setPort p x).link k l = s.link k l := rfl
@[simp] theorem State.setPort_read_queue (p : Nat) (x : HostPort) (k : Nat) : (s.setPort p x).queue k = s.queue k := rfl
@[simp] theorem State.setPort_read_mail (p : Nat) (x : HostPort) (k l m : Nat) : (s.setPort p x).mail k l m = s.mail k l m := rfl
@[simp] theorem State.setPort_read_cmd (p : Nat) (x : HostPort) (k : Nat) : (s.setPort p x).cmd? k = s.cmd? k := rfl
@[simp] theorem State.setPort_read_mboxReg (p : Nat) (x : HostPort) (k l : Nat) : (s.setPort p x).mboxReg k l = s.mboxReg k l := rfl
@[simp] theorem State.setPort_read_eccAt (p : Nat) (x : HostPort) (k : Nat) : (s.setPort p x).eccAt k = s.eccAt k := rfl

/-! ### State.setCmd -/

@[simp] theorem State.setCmd_pending (c : Cmd) : (s.setCmd c).pending = s.pending := rfl
@[simp] theorem State.setCmd_free (c : Cmd) : (s.setCmd c).free = s.free := rfl
@[simp] theorem State.setCmd_regs (c : Cmd) : (s.setCmd c).regs = s.regs := rfl
@[simp] theorem State.setCmd_mem (c : Cmd) : (s.setCmd c).mem = s.mem := rfl
@[simp] theorem State.setCmd_ecc (c : Cmd) : (s.setCmd c).ecc = s.ecc := rfl
@[simp] theorem State.setCmd_mode (c : Cmd) : (s.setCmd c).mode = s.mode := rfl
@[simp] theorem State.setCmd_alwaysOn (c : Cmd) : (s.setCmd c).alwaysOn = s.alwaysOn := rfl
@[simp] theorem State.setCmd_resetDue (c : Cmd) : (s.setCmd c).resetDue = s.resetDue := rfl
@[simp] theorem State.setCmd_watchdog (c : Cmd) : (s.setCmd c).watchdog = s.watchdog := rfl
@[simp] theorem State.setCmd_power (c : Cmd) : (s.setCmd c).power = s.power := rfl
@[simp] theorem State.setCmd_flash (c : Cmd) : (s.setCmd c).flash = s.flash := rfl
@[simp] theorem State.setCmd_fwRunning (c : Cmd) : (s.setCmd c).fwRunning = s.fwRunning := rfl
@[simp] theorem State.setCmd_applied (c : Cmd) : (s.setCmd c).applied = s.applied := rfl
@[simp] theorem State.setCmd_appliedImage (c : Cmd) : (s.setCmd c).appliedImage = s.appliedImage := rfl
@[simp] theorem State.setCmd_seamRetrain (c : Cmd) : (s.setCmd c).seamRetrain = s.seamRetrain := rfl
@[simp] theorem State.setCmd_domainLost (c : Cmd) : (s.setCmd c).domainLost = s.domainLost := rfl
@[simp] theorem State.setCmd_tileMap (c : Cmd) : (s.setCmd c).tileMap = s.tileMap := rfl
@[simp] theorem State.setCmd_tiles (c : Cmd) : (s.setCmd c).tiles = s.tiles := rfl
@[simp] theorem State.setCmd_chans (c : Cmd) : (s.setCmd c).chans = s.chans := rfl
@[simp] theorem State.setCmd_hbm (c : Cmd) : (s.setCmd c).hbm = s.hbm := rfl
@[simp] theorem State.setCmd_tokens (c : Cmd) : (s.setCmd c).tokens = s.tokens := rfl
@[simp] theorem State.setCmd_cxl (c : Cmd) : (s.setCmd c).cxl = s.cxl := rfl
@[simp] theorem State.setCmd_arbs (c : Cmd) : (s.setCmd c).arbs = s.arbs := rfl
@[simp] theorem State.setCmd_credits (c : Cmd) : (s.setCmd c).credits = s.credits := rfl
@[simp] theorem State.setCmd_fab (c : Cmd) : (s.setCmd c).fab = s.fab := rfl
@[simp] theorem State.setCmd_turns (c : Cmd) : (s.setCmd c).turns = s.turns := rfl
@[simp] theorem State.setCmd_mgrants (c : Cmd) : (s.setCmd c).mgrants = s.mgrants := rfl
@[simp] theorem State.setCmd_netSlots (c : Cmd) : (s.setCmd c).netSlots = s.netSlots := rfl
@[simp] theorem State.setCmd_mvTurn (c : Cmd) : (s.setCmd c).mvTurn = s.mvTurn := rfl
@[simp] theorem State.setCmd_flows (c : Cmd) : (s.setCmd c).flows = s.flows := rfl
@[simp] theorem State.setCmd_links (c : Cmd) : (s.setCmd c).links = s.links := rfl
@[simp] theorem State.setCmd_arrived (c : Cmd) : (s.setCmd c).arrived = s.arrived := rfl
@[simp] theorem State.setCmd_forward (c : Cmd) : (s.setCmd c).forward = s.forward := rfl
@[simp] theorem State.setCmd_jobs (c : Cmd) : (s.setCmd c).jobs = s.jobs := rfl
@[simp] theorem State.setCmd_aborts (c : Cmd) : (s.setCmd c).aborts = s.aborts := rfl
@[simp] theorem State.setCmd_nextCid (c : Cmd) : (s.setCmd c).nextCid = s.nextCid := rfl
@[simp] theorem State.setCmd_queues (c : Cmd) : (s.setCmd c).queues = s.queues := rfl
@[simp] theorem State.setCmd_qTurn (c : Cmd) : (s.setCmd c).qTurn = s.qTurn := rfl
@[simp] theorem State.setCmd_versions (c : Cmd) : (s.setCmd c).versions = s.versions := rfl
@[simp] theorem State.setCmd_glaunches (c : Cmd) : (s.setCmd c).glaunches = s.glaunches := rfl
@[simp] theorem State.setCmd_graphNo (c : Cmd) : (s.setCmd c).graphNo = s.graphNo := rfl
@[simp] theorem State.setCmd_mbox (c : Cmd) : (s.setCmd c).mbox = s.mbox := rfl
@[simp] theorem State.setCmd_mboxRegs (c : Cmd) : (s.setCmd c).mboxRegs = s.mboxRegs := rfl
@[simp] theorem State.setCmd_secure (c : Cmd) : (s.setCmd c).secure = s.secure := rfl
@[simp] theorem State.setCmd_d2hHeld (c : Cmd) : (s.setCmd c).d2hHeld = s.d2hHeld := rfl
@[simp] theorem State.setCmd_ppRun (c : Cmd) : (s.setCmd c).ppRun = s.ppRun := rfl
@[simp] theorem State.setCmd_rcvErased (c : Cmd) : (s.setCmd c).rcvErased = s.rcvErased := rfl
@[simp] theorem State.setCmd_ports (c : Cmd) : (s.setCmd c).ports = s.ports := rfl
@[simp] theorem State.setCmd_msix (c : Cmd) : (s.setCmd c).msix = s.msix := rfl
@[simp] theorem State.setCmd_msixPend (c : Cmd) : (s.setCmd c).msixPend = s.msixPend := rfl
@[simp] theorem State.setCmd_out (c : Cmd) : (s.setCmd c).out = s.out := rfl
@[simp] theorem State.setCmd_read_reg (c : Cmd) (k : Nat) : (s.setCmd c).reg k = s.reg k := rfl
@[simp] theorem State.setCmd_read_byte (c : Cmd) (k : Nat) : (s.setCmd c).byte k = s.byte k := rfl
@[simp] theorem State.setCmd_read_bytes (c : Cmd) (k m : Nat) : (s.setCmd c).bytes k m = s.bytes k m := rfl
@[simp] theorem State.setCmd_read_tile (c : Cmd) (k : Nat) : (s.setCmd c).tile k = s.tile k := rfl
@[simp] theorem State.setCmd_read_chan (c : Cmd) (k : Nat) : (s.setCmd c).chan k = s.chan k := rfl
@[simp] theorem State.setCmd_read_stack (c : Cmd) (k : Nat) : (s.setCmd c).stack k = s.stack k := rfl
@[simp] theorem State.setCmd_read_flow (c : Cmd) (k : Nat) : (s.setCmd c).flow k = s.flow k := rfl
@[simp] theorem State.setCmd_read_link (c : Cmd) (k l : Nat) : (s.setCmd c).link k l = s.link k l := rfl
@[simp] theorem State.setCmd_read_queue (c : Cmd) (k : Nat) : (s.setCmd c).queue k = s.queue k := rfl
@[simp] theorem State.setCmd_read_mail (c : Cmd) (k l m : Nat) : (s.setCmd c).mail k l m = s.mail k l m := rfl
@[simp] theorem State.setCmd_read_port (c : Cmd) (k : Nat) : (s.setCmd c).port k = s.port k := rfl
@[simp] theorem State.setCmd_read_mboxReg (c : Cmd) (k l : Nat) : (s.setCmd c).mboxReg k l = s.mboxReg k l := rfl
@[simp] theorem State.setCmd_read_eccAt (c : Cmd) (k : Nat) : (s.setCmd c).eccAt k = s.eccAt k := rfl

/-! ### State.finish -/

@[simp] theorem State.finish_pending (cid : Nat) (st : Status) : (s.finish cid st).pending = s.pending := rfl
@[simp] theorem State.finish_free (cid : Nat) (st : Status) : (s.finish cid st).free = s.free := rfl
@[simp] theorem State.finish_regs (cid : Nat) (st : Status) : (s.finish cid st).regs = s.regs := rfl
@[simp] theorem State.finish_mem (cid : Nat) (st : Status) : (s.finish cid st).mem = s.mem := rfl
@[simp] theorem State.finish_ecc (cid : Nat) (st : Status) : (s.finish cid st).ecc = s.ecc := rfl
@[simp] theorem State.finish_mode (cid : Nat) (st : Status) : (s.finish cid st).mode = s.mode := rfl
@[simp] theorem State.finish_alwaysOn (cid : Nat) (st : Status) : (s.finish cid st).alwaysOn = s.alwaysOn := rfl
@[simp] theorem State.finish_resetDue (cid : Nat) (st : Status) : (s.finish cid st).resetDue = s.resetDue := rfl
@[simp] theorem State.finish_watchdog (cid : Nat) (st : Status) : (s.finish cid st).watchdog = s.watchdog := rfl
@[simp] theorem State.finish_power (cid : Nat) (st : Status) : (s.finish cid st).power = s.power := rfl
@[simp] theorem State.finish_flash (cid : Nat) (st : Status) : (s.finish cid st).flash = s.flash := rfl
@[simp] theorem State.finish_fwRunning (cid : Nat) (st : Status) : (s.finish cid st).fwRunning = s.fwRunning := rfl
@[simp] theorem State.finish_applied (cid : Nat) (st : Status) : (s.finish cid st).applied = s.applied := rfl
@[simp] theorem State.finish_appliedImage (cid : Nat) (st : Status) : (s.finish cid st).appliedImage = s.appliedImage := rfl
@[simp] theorem State.finish_seamRetrain (cid : Nat) (st : Status) : (s.finish cid st).seamRetrain = s.seamRetrain := rfl
@[simp] theorem State.finish_domainLost (cid : Nat) (st : Status) : (s.finish cid st).domainLost = s.domainLost := rfl
@[simp] theorem State.finish_tileMap (cid : Nat) (st : Status) : (s.finish cid st).tileMap = s.tileMap := rfl
@[simp] theorem State.finish_tiles (cid : Nat) (st : Status) : (s.finish cid st).tiles = s.tiles := rfl
@[simp] theorem State.finish_chans (cid : Nat) (st : Status) : (s.finish cid st).chans = s.chans := rfl
@[simp] theorem State.finish_hbm (cid : Nat) (st : Status) : (s.finish cid st).hbm = s.hbm := rfl
@[simp] theorem State.finish_tokens (cid : Nat) (st : Status) : (s.finish cid st).tokens = s.tokens := rfl
@[simp] theorem State.finish_cxl (cid : Nat) (st : Status) : (s.finish cid st).cxl = s.cxl := rfl
@[simp] theorem State.finish_arbs (cid : Nat) (st : Status) : (s.finish cid st).arbs = s.arbs := rfl
@[simp] theorem State.finish_credits (cid : Nat) (st : Status) : (s.finish cid st).credits = s.credits := rfl
@[simp] theorem State.finish_fab (cid : Nat) (st : Status) : (s.finish cid st).fab = s.fab := rfl
@[simp] theorem State.finish_turns (cid : Nat) (st : Status) : (s.finish cid st).turns = s.turns := rfl
@[simp] theorem State.finish_mgrants (cid : Nat) (st : Status) : (s.finish cid st).mgrants = s.mgrants := rfl
@[simp] theorem State.finish_netSlots (cid : Nat) (st : Status) : (s.finish cid st).netSlots = s.netSlots := rfl
@[simp] theorem State.finish_mvTurn (cid : Nat) (st : Status) : (s.finish cid st).mvTurn = s.mvTurn := rfl
@[simp] theorem State.finish_flows (cid : Nat) (st : Status) : (s.finish cid st).flows = s.flows := rfl
@[simp] theorem State.finish_links (cid : Nat) (st : Status) : (s.finish cid st).links = s.links := rfl
@[simp] theorem State.finish_arrived (cid : Nat) (st : Status) : (s.finish cid st).arrived = s.arrived := rfl
@[simp] theorem State.finish_forward (cid : Nat) (st : Status) : (s.finish cid st).forward = s.forward := rfl
@[simp] theorem State.finish_jobs (cid : Nat) (st : Status) : (s.finish cid st).jobs = s.jobs := rfl
@[simp] theorem State.finish_aborts (cid : Nat) (st : Status) : (s.finish cid st).aborts = s.aborts := rfl
@[simp] theorem State.finish_nextCid (cid : Nat) (st : Status) : (s.finish cid st).nextCid = s.nextCid := rfl
@[simp] theorem State.finish_queues (cid : Nat) (st : Status) : (s.finish cid st).queues = s.queues := rfl
@[simp] theorem State.finish_qTurn (cid : Nat) (st : Status) : (s.finish cid st).qTurn = s.qTurn := rfl
@[simp] theorem State.finish_versions (cid : Nat) (st : Status) : (s.finish cid st).versions = s.versions := rfl
@[simp] theorem State.finish_glaunches (cid : Nat) (st : Status) : (s.finish cid st).glaunches = s.glaunches := rfl
@[simp] theorem State.finish_graphNo (cid : Nat) (st : Status) : (s.finish cid st).graphNo = s.graphNo := rfl
@[simp] theorem State.finish_mbox (cid : Nat) (st : Status) : (s.finish cid st).mbox = s.mbox := rfl
@[simp] theorem State.finish_mboxRegs (cid : Nat) (st : Status) : (s.finish cid st).mboxRegs = s.mboxRegs := rfl
@[simp] theorem State.finish_secure (cid : Nat) (st : Status) : (s.finish cid st).secure = s.secure := rfl
@[simp] theorem State.finish_d2hHeld (cid : Nat) (st : Status) : (s.finish cid st).d2hHeld = s.d2hHeld := rfl
@[simp] theorem State.finish_ppRun (cid : Nat) (st : Status) : (s.finish cid st).ppRun = s.ppRun := rfl
@[simp] theorem State.finish_rcvErased (cid : Nat) (st : Status) : (s.finish cid st).rcvErased = s.rcvErased := rfl
@[simp] theorem State.finish_ports (cid : Nat) (st : Status) : (s.finish cid st).ports = s.ports := rfl
@[simp] theorem State.finish_msix (cid : Nat) (st : Status) : (s.finish cid st).msix = s.msix := rfl
@[simp] theorem State.finish_msixPend (cid : Nat) (st : Status) : (s.finish cid st).msixPend = s.msixPend := rfl
@[simp] theorem State.finish_out (cid : Nat) (st : Status) : (s.finish cid st).out = s.out := rfl
@[simp] theorem State.finish_read_reg (cid : Nat) (st : Status) (k : Nat) : (s.finish cid st).reg k = s.reg k := rfl
@[simp] theorem State.finish_read_byte (cid : Nat) (st : Status) (k : Nat) : (s.finish cid st).byte k = s.byte k := rfl
@[simp] theorem State.finish_read_bytes (cid : Nat) (st : Status) (k m : Nat) : (s.finish cid st).bytes k m = s.bytes k m := rfl
@[simp] theorem State.finish_read_tile (cid : Nat) (st : Status) (k : Nat) : (s.finish cid st).tile k = s.tile k := rfl
@[simp] theorem State.finish_read_chan (cid : Nat) (st : Status) (k : Nat) : (s.finish cid st).chan k = s.chan k := rfl
@[simp] theorem State.finish_read_stack (cid : Nat) (st : Status) (k : Nat) : (s.finish cid st).stack k = s.stack k := rfl
@[simp] theorem State.finish_read_flow (cid : Nat) (st : Status) (k : Nat) : (s.finish cid st).flow k = s.flow k := rfl
@[simp] theorem State.finish_read_link (cid : Nat) (st : Status) (k l : Nat) : (s.finish cid st).link k l = s.link k l := rfl
@[simp] theorem State.finish_read_queue (cid : Nat) (st : Status) (k : Nat) : (s.finish cid st).queue k = s.queue k := rfl
@[simp] theorem State.finish_read_mail (cid : Nat) (st : Status) (k l m : Nat) : (s.finish cid st).mail k l m = s.mail k l m := rfl
@[simp] theorem State.finish_read_port (cid : Nat) (st : Status) (k : Nat) : (s.finish cid st).port k = s.port k := rfl
@[simp] theorem State.finish_read_mboxReg (cid : Nat) (st : Status) (k l : Nat) : (s.finish cid st).mboxReg k l = s.mboxReg k l := rfl
@[simp] theorem State.finish_read_eccAt (cid : Nat) (st : Status) (k : Nat) : (s.finish cid st).eccAt k = s.eccAt k := rfl

/-! ### State.setMboxReg -/

@[simp] theorem State.setMboxReg_pending (p i : Nat) (v : BitVec 32) : (s.setMboxReg p i v).pending = s.pending := rfl
@[simp] theorem State.setMboxReg_free (p i : Nat) (v : BitVec 32) : (s.setMboxReg p i v).free = s.free := rfl
@[simp] theorem State.setMboxReg_regs (p i : Nat) (v : BitVec 32) : (s.setMboxReg p i v).regs = s.regs := rfl
@[simp] theorem State.setMboxReg_mem (p i : Nat) (v : BitVec 32) : (s.setMboxReg p i v).mem = s.mem := rfl
@[simp] theorem State.setMboxReg_ecc (p i : Nat) (v : BitVec 32) : (s.setMboxReg p i v).ecc = s.ecc := rfl
@[simp] theorem State.setMboxReg_mode (p i : Nat) (v : BitVec 32) : (s.setMboxReg p i v).mode = s.mode := rfl
@[simp] theorem State.setMboxReg_alwaysOn (p i : Nat) (v : BitVec 32) : (s.setMboxReg p i v).alwaysOn = s.alwaysOn := rfl
@[simp] theorem State.setMboxReg_resetDue (p i : Nat) (v : BitVec 32) : (s.setMboxReg p i v).resetDue = s.resetDue := rfl
@[simp] theorem State.setMboxReg_watchdog (p i : Nat) (v : BitVec 32) : (s.setMboxReg p i v).watchdog = s.watchdog := rfl
@[simp] theorem State.setMboxReg_power (p i : Nat) (v : BitVec 32) : (s.setMboxReg p i v).power = s.power := rfl
@[simp] theorem State.setMboxReg_flash (p i : Nat) (v : BitVec 32) : (s.setMboxReg p i v).flash = s.flash := rfl
@[simp] theorem State.setMboxReg_fwRunning (p i : Nat) (v : BitVec 32) : (s.setMboxReg p i v).fwRunning = s.fwRunning := rfl
@[simp] theorem State.setMboxReg_applied (p i : Nat) (v : BitVec 32) : (s.setMboxReg p i v).applied = s.applied := rfl
@[simp] theorem State.setMboxReg_appliedImage (p i : Nat) (v : BitVec 32) : (s.setMboxReg p i v).appliedImage = s.appliedImage := rfl
@[simp] theorem State.setMboxReg_seamRetrain (p i : Nat) (v : BitVec 32) : (s.setMboxReg p i v).seamRetrain = s.seamRetrain := rfl
@[simp] theorem State.setMboxReg_domainLost (p i : Nat) (v : BitVec 32) : (s.setMboxReg p i v).domainLost = s.domainLost := rfl
@[simp] theorem State.setMboxReg_tileMap (p i : Nat) (v : BitVec 32) : (s.setMboxReg p i v).tileMap = s.tileMap := rfl
@[simp] theorem State.setMboxReg_tiles (p i : Nat) (v : BitVec 32) : (s.setMboxReg p i v).tiles = s.tiles := rfl
@[simp] theorem State.setMboxReg_chans (p i : Nat) (v : BitVec 32) : (s.setMboxReg p i v).chans = s.chans := rfl
@[simp] theorem State.setMboxReg_hbm (p i : Nat) (v : BitVec 32) : (s.setMboxReg p i v).hbm = s.hbm := rfl
@[simp] theorem State.setMboxReg_tokens (p i : Nat) (v : BitVec 32) : (s.setMboxReg p i v).tokens = s.tokens := rfl
@[simp] theorem State.setMboxReg_cxl (p i : Nat) (v : BitVec 32) : (s.setMboxReg p i v).cxl = s.cxl := rfl
@[simp] theorem State.setMboxReg_arbs (p i : Nat) (v : BitVec 32) : (s.setMboxReg p i v).arbs = s.arbs := rfl
@[simp] theorem State.setMboxReg_credits (p i : Nat) (v : BitVec 32) : (s.setMboxReg p i v).credits = s.credits := rfl
@[simp] theorem State.setMboxReg_fab (p i : Nat) (v : BitVec 32) : (s.setMboxReg p i v).fab = s.fab := rfl
@[simp] theorem State.setMboxReg_turns (p i : Nat) (v : BitVec 32) : (s.setMboxReg p i v).turns = s.turns := rfl
@[simp] theorem State.setMboxReg_mgrants (p i : Nat) (v : BitVec 32) : (s.setMboxReg p i v).mgrants = s.mgrants := rfl
@[simp] theorem State.setMboxReg_netSlots (p i : Nat) (v : BitVec 32) : (s.setMboxReg p i v).netSlots = s.netSlots := rfl
@[simp] theorem State.setMboxReg_mvTurn (p i : Nat) (v : BitVec 32) : (s.setMboxReg p i v).mvTurn = s.mvTurn := rfl
@[simp] theorem State.setMboxReg_flows (p i : Nat) (v : BitVec 32) : (s.setMboxReg p i v).flows = s.flows := rfl
@[simp] theorem State.setMboxReg_links (p i : Nat) (v : BitVec 32) : (s.setMboxReg p i v).links = s.links := rfl
@[simp] theorem State.setMboxReg_arrived (p i : Nat) (v : BitVec 32) : (s.setMboxReg p i v).arrived = s.arrived := rfl
@[simp] theorem State.setMboxReg_forward (p i : Nat) (v : BitVec 32) : (s.setMboxReg p i v).forward = s.forward := rfl
@[simp] theorem State.setMboxReg_jobs (p i : Nat) (v : BitVec 32) : (s.setMboxReg p i v).jobs = s.jobs := rfl
@[simp] theorem State.setMboxReg_aborts (p i : Nat) (v : BitVec 32) : (s.setMboxReg p i v).aborts = s.aborts := rfl
@[simp] theorem State.setMboxReg_cmds (p i : Nat) (v : BitVec 32) : (s.setMboxReg p i v).cmds = s.cmds := rfl
@[simp] theorem State.setMboxReg_nextCid (p i : Nat) (v : BitVec 32) : (s.setMboxReg p i v).nextCid = s.nextCid := rfl
@[simp] theorem State.setMboxReg_queues (p i : Nat) (v : BitVec 32) : (s.setMboxReg p i v).queues = s.queues := rfl
@[simp] theorem State.setMboxReg_qTurn (p i : Nat) (v : BitVec 32) : (s.setMboxReg p i v).qTurn = s.qTurn := rfl
@[simp] theorem State.setMboxReg_versions (p i : Nat) (v : BitVec 32) : (s.setMboxReg p i v).versions = s.versions := rfl
@[simp] theorem State.setMboxReg_glaunches (p i : Nat) (v : BitVec 32) : (s.setMboxReg p i v).glaunches = s.glaunches := rfl
@[simp] theorem State.setMboxReg_graphNo (p i : Nat) (v : BitVec 32) : (s.setMboxReg p i v).graphNo = s.graphNo := rfl
@[simp] theorem State.setMboxReg_mbox (p i : Nat) (v : BitVec 32) : (s.setMboxReg p i v).mbox = s.mbox := rfl
@[simp] theorem State.setMboxReg_secure (p i : Nat) (v : BitVec 32) : (s.setMboxReg p i v).secure = s.secure := rfl
@[simp] theorem State.setMboxReg_d2hHeld (p i : Nat) (v : BitVec 32) : (s.setMboxReg p i v).d2hHeld = s.d2hHeld := rfl
@[simp] theorem State.setMboxReg_ppRun (p i : Nat) (v : BitVec 32) : (s.setMboxReg p i v).ppRun = s.ppRun := rfl
@[simp] theorem State.setMboxReg_rcvErased (p i : Nat) (v : BitVec 32) : (s.setMboxReg p i v).rcvErased = s.rcvErased := rfl
@[simp] theorem State.setMboxReg_ports (p i : Nat) (v : BitVec 32) : (s.setMboxReg p i v).ports = s.ports := rfl
@[simp] theorem State.setMboxReg_msix (p i : Nat) (v : BitVec 32) : (s.setMboxReg p i v).msix = s.msix := rfl
@[simp] theorem State.setMboxReg_msixPend (p i : Nat) (v : BitVec 32) : (s.setMboxReg p i v).msixPend = s.msixPend := rfl
@[simp] theorem State.setMboxReg_out (p i : Nat) (v : BitVec 32) : (s.setMboxReg p i v).out = s.out := rfl
@[simp] theorem State.setMboxReg_read_reg (p i : Nat) (v : BitVec 32) (k : Nat) : (s.setMboxReg p i v).reg k = s.reg k := rfl
@[simp] theorem State.setMboxReg_read_byte (p i : Nat) (v : BitVec 32) (k : Nat) : (s.setMboxReg p i v).byte k = s.byte k := rfl
@[simp] theorem State.setMboxReg_read_bytes (p i : Nat) (v : BitVec 32) (k m : Nat) : (s.setMboxReg p i v).bytes k m = s.bytes k m := rfl
@[simp] theorem State.setMboxReg_read_tile (p i : Nat) (v : BitVec 32) (k : Nat) : (s.setMboxReg p i v).tile k = s.tile k := rfl
@[simp] theorem State.setMboxReg_read_chan (p i : Nat) (v : BitVec 32) (k : Nat) : (s.setMboxReg p i v).chan k = s.chan k := rfl
@[simp] theorem State.setMboxReg_read_stack (p i : Nat) (v : BitVec 32) (k : Nat) : (s.setMboxReg p i v).stack k = s.stack k := rfl
@[simp] theorem State.setMboxReg_read_flow (p i : Nat) (v : BitVec 32) (k : Nat) : (s.setMboxReg p i v).flow k = s.flow k := rfl
@[simp] theorem State.setMboxReg_read_link (p i : Nat) (v : BitVec 32) (k l : Nat) : (s.setMboxReg p i v).link k l = s.link k l := rfl
@[simp] theorem State.setMboxReg_read_queue (p i : Nat) (v : BitVec 32) (k : Nat) : (s.setMboxReg p i v).queue k = s.queue k := rfl
@[simp] theorem State.setMboxReg_read_mail (p i : Nat) (v : BitVec 32) (k l m : Nat) : (s.setMboxReg p i v).mail k l m = s.mail k l m := rfl
@[simp] theorem State.setMboxReg_read_port (p i : Nat) (v : BitVec 32) (k : Nat) : (s.setMboxReg p i v).port k = s.port k := rfl
@[simp] theorem State.setMboxReg_read_cmd (p i : Nat) (v : BitVec 32) (k : Nat) : (s.setMboxReg p i v).cmd? k = s.cmd? k := rfl
@[simp] theorem State.setMboxReg_read_eccAt (p i : Nat) (v : BitVec 32) (k : Nat) : (s.setMboxReg p i v).eccAt k = s.eccAt k := rfl

/-! ### Registers -/

@[simp] theorem State.reg_setReg_same (o : Nat) (v : Word) : (s.setReg o v).reg o = v := tget_tset_same _ _ _ _

theorem State.reg_setReg_ne (o k : Nat) (v : Word) (h : k ≠ o) : (s.setReg o v).reg k = s.reg k :=
  tget_tset_ne _ _ _ _ _ h

theorem State.reg_setReg (o k : Nat) (v : Word) : (s.setReg o v).reg k = if k = o then v else s.reg k :=
  tget_tset _ _ _ _ _

theorem State.putReg_eq (o hi lo v : Nat) : s.putReg o hi lo v = s.setReg o (putField (s.reg o) hi lo v) := rfl

theorem State.putBit_eq (o n : Nat) (b : Bool) : s.putBit o n b = s.setReg o (putFlag (s.reg o) n b) := rfl

theorem State.count_eq (o n : Nat) :
    s.count o n = s.setReg o (BitVec.ofNat 64 (min ((s.reg o).toNat + n) 0xFFFFFFFF)) := rfl

theorem State.count64_eq (o n : Nat) :
    s.count64 o n = s.setReg o (BitVec.ofNat 64 (min ((s.reg o).toNat + n) 0xFFFFFFFFFFFFFFFF)) := rfl

theorem State.reg_resetRegs (a n k : Nat) :
    (s.resetRegs a n).reg k = if a ≤ k ∧ k < a + n then regReset k else s.reg k := tget_tclear _ _ _ _ _

/-! ### Units -/

@[simp] theorem State.tile_setTile_same (t : Nat) (x : Tile) : (s.setTile t x).tile t = x := tget_tset_same _ _ _ _

theorem State.tile_setTile (t k : Nat) (x : Tile) : (s.setTile t x).tile k = if k = t then x else s.tile k :=
  tget_tset _ _ _ _ _

@[simp] theorem State.chan_setChan_same (c : Nat) (x : Chan) : (s.setChan c x).chan c = x := tget_tset_same _ _ _ _

theorem State.chan_setChan (c k : Nat) (x : Chan) : (s.setChan c x).chan k = if k = c then x else s.chan k :=
  tget_tset _ _ _ _ _

@[simp] theorem State.stack_setStack_same (i : Nat) (x : Stack) : (s.setStack i x).stack i = x :=
  tget_tset_same _ _ _ _

@[simp] theorem State.flow_setFlow_same (i : Nat) (x : Flow) : (s.setFlow i x).flow i = x := tget_tset_same _ _ _ _

theorem State.flow_setFlow (i k : Nat) (x : Flow) : (s.setFlow i x).flow k = if k = i then x else s.flow k :=
  tget_tset _ _ _ _ _

@[simp] theorem State.link_setLink_same (p u : Nat) (x : Link) : (s.setLink p u x).link p u = x :=
  tget_tset_same _ _ _ _

@[simp] theorem State.queue_setQueue_same (q : Nat) (x : Queue) : (s.setQueue q x).queue q = x :=
  tget_tset_same _ _ _ _

@[simp] theorem State.mail_setMail_same (d p c : Nat) (x : Mbox) : (s.setMail d p c x).mail d p c = x :=
  tget_tset_same _ _ _ _

@[simp] theorem State.port_setPort_same (p : Nat) (x : HostPort) : (s.setPort p x).port p = x :=
  tget_tset_same _ _ _ _

/-- The second of two writes of one unit is what stays. -/
@[simp] theorem State.setTile_setTile (t : Nat) (x y : Tile) : (s.setTile t x).setTile t y = s.setTile t y := by
  simp only [State.setTile, tset_tset]

@[simp] theorem State.setChan_setChan (c : Nat) (x y : Chan) : (s.setChan c x).setChan c y = s.setChan c y := by
  simp only [State.setChan, tset_tset]

@[simp] theorem State.setFlow_setFlow (i : Nat) (x y : Flow) : (s.setFlow i x).setFlow i y = s.setFlow i y := by
  simp only [State.setFlow, tset_tset]

@[simp] theorem State.setReg_setReg (o : Nat) (u v : Word) : (s.setReg o u).setReg o v = s.setReg o v := by
  simp only [State.setReg, tset_tset]

/-! ### Memory -/

theorem tget_writeCells (bs : List Byte) (a : Nat) (m : Table Byte) (k : Nat) :
    tget memDefault (writeCells bs a m) k =
      if a ≤ k ∧ k < a + bs.length then bs.getD (k - a) 0 else tget memDefault m k := by
  induction bs generalizing a m with
  | nil => rw [writeCells, if_neg (by simp)]
  | cons b r ih =>
    rw [writeCells, ih]
    simp only [List.length_cons]
    by_cases h : a + 1 ≤ k ∧ k < a + 1 + r.length
    · rw [if_pos h, if_pos (by omega)]
      have e : k - a = (k - (a + 1)) + 1 := by omega
      rw [e]; rfl
    · rw [if_neg h, tget_tset]
      by_cases hk : k = a
      · subst hk
        rw [if_pos rfl, if_pos (by omega)]
        simp
      · rw [if_neg hk, if_neg (by omega)]

/-- A read of one byte after a store: the stored byte inside the stored range, the old byte outside. -/
theorem State.byte_store (a k : Nat) (bs : List Byte) :
    (s.store a bs).byte k = if a ≤ k ∧ k < a + bs.length then bs.getD (k - a) 0 else s.byte k :=
  tget_writeCells _ _ _ _

theorem State.byte_store_outside (a k : Nat) (bs : List Byte) (h : k < a ∨ a + bs.length ≤ k) :
    (s.store a bs).byte k = s.byte k := by
  rw [State.byte_store, if_neg (by omega)]

/-- The bytes just stored read back. -/
theorem State.bytes_store_same (a : Nat) (bs : List Byte) : (s.store a bs).bytes a bs.length = bs := by
  apply List.ext_getElem
  · simp [State.bytes]
  · intro i h1 h2
    simp only [State.bytes, List.getElem_map, List.getElem_range, State.byte_store]
    rw [if_pos (by omega)]
    simp [List.getD_eq_getElem?_getD, h2]

/-- Bytes outside a stored range read as before. -/
theorem State.bytes_store_outside (a k n : Nat) (bs : List Byte) (h : k + n ≤ a ∨ a + bs.length ≤ k) :
    (s.store a bs).bytes k n = s.bytes k n := by
  simp only [State.bytes]
  apply List.map_congr_left
  intro i hi
  have := List.mem_range.mp hi
  exact State.byte_store_outside s a (k + i) bs (by omega)

theorem writeCells_wf (bs : List Byte) (a : Nat) (m : Table Byte) (h : Memory.wf m = true) :
    Memory.wf (writeCells bs a m) = true := by
  induction bs generalizing a m with
  | nil => exact h
  | cons b r ih => exact ih _ _ (twf_tset _ _ _ h)

/-- A store keeps memory's canonical form. -/
theorem State.store_wf (a : Nat) (bs : List Byte) (h : Memory.wf s.mem = true) :
    Memory.wf (s.store a bs).mem = true := writeCells_wf _ _ _ h

theorem State.storeAll_wf (l : List (Nat × List Byte)) (h : Memory.wf s.mem = true) :
    Memory.wf (s.storeAll l).mem = true := by
  induction l generalizing s with
  | nil => exact h
  | cons e r ih => exact ih _ (State.store_wf s _ _ h)

/-- Clearing a range of memory keeps its canonical form. -/
theorem memory_tclear_wf (m : Table Byte) (a n : Nat) (h : Memory.wf m = true) : Memory.wf (tclear m a n) = true :=
  twf_tclear _ _ _ h

end Sys2Proof.Machine
end

