-- ==== Sys2Proof/Laws/Fabric.lean ====
section
/-! SUPPORT. What taking a turn and sending packets leave: one lemma per field and read, and one that says all each operation
can do. -/
namespace Sys2Proof.Machine

variable (s : State)

/-! ### Turns of a front end -/

/-- Taking a command changes at most the turn of its engine's front end. -/
theorem State.taken_eq (c : Cmd) : s.taken c = { s with qTurn := (s.taken c).qTurn } := by
  unfold State.taken; split <;> rfl

/-- A command of a queue uses no turn when it starts. -/
theorem State.taken_queue (c : Cmd) (h : c.isNode = false) : s.taken c = s := by simp [State.taken, h]

@[simp] theorem State.taken_regs (c : Cmd) : (s.taken c).regs = s.regs := by rw [State.taken_eq]
@[simp] theorem State.taken_pending (c : Cmd) : (s.taken c).pending = s.pending := by rw [State.taken_eq]
@[simp] theorem State.taken_free (c : Cmd) : (s.taken c).free = s.free := by rw [State.taken_eq]
@[simp] theorem State.taken_mem (c : Cmd) : (s.taken c).mem = s.mem := by rw [State.taken_eq]
@[simp] theorem State.taken_ecc (c : Cmd) : (s.taken c).ecc = s.ecc := by rw [State.taken_eq]
@[simp] theorem State.taken_mode (c : Cmd) : (s.taken c).mode = s.mode := by rw [State.taken_eq]
@[simp] theorem State.taken_alwaysOn (c : Cmd) : (s.taken c).alwaysOn = s.alwaysOn := by rw [State.taken_eq]
@[simp] theorem State.taken_resetDue (c : Cmd) : (s.taken c).resetDue = s.resetDue := by rw [State.taken_eq]
@[simp] theorem State.taken_watchdog (c : Cmd) : (s.taken c).watchdog = s.watchdog := by rw [State.taken_eq]
@[simp] theorem State.taken_power (c : Cmd) : (s.taken c).power = s.power := by rw [State.taken_eq]
@[simp] theorem State.taken_flash (c : Cmd) : (s.taken c).flash = s.flash := by rw [State.taken_eq]
@[simp] theorem State.taken_fwRunning (c : Cmd) : (s.taken c).fwRunning = s.fwRunning := by rw [State.taken_eq]
@[simp] theorem State.taken_applied (c : Cmd) : (s.taken c).applied = s.applied := by rw [State.taken_eq]
@[simp] theorem State.taken_appliedImage (c : Cmd) : (s.taken c).appliedImage = s.appliedImage := by rw [State.taken_eq]
@[simp] theorem State.taken_seamRetrain (c : Cmd) : (s.taken c).seamRetrain = s.seamRetrain := by rw [State.taken_eq]
@[simp] theorem State.taken_domainLost (c : Cmd) : (s.taken c).domainLost = s.domainLost := by rw [State.taken_eq]
@[simp] theorem State.taken_tileMap (c : Cmd) : (s.taken c).tileMap = s.tileMap := by rw [State.taken_eq]
@[simp] theorem State.taken_tiles (c : Cmd) : (s.taken c).tiles = s.tiles := by rw [State.taken_eq]
@[simp] theorem State.taken_chans (c : Cmd) : (s.taken c).chans = s.chans := by rw [State.taken_eq]
@[simp] theorem State.taken_hbm (c : Cmd) : (s.taken c).hbm = s.hbm := by rw [State.taken_eq]
@[simp] theorem State.taken_tokens (c : Cmd) : (s.taken c).tokens = s.tokens := by rw [State.taken_eq]
@[simp] theorem State.taken_cxl (c : Cmd) : (s.taken c).cxl = s.cxl := by rw [State.taken_eq]
@[simp] theorem State.taken_arbs (c : Cmd) : (s.taken c).arbs = s.arbs := by rw [State.taken_eq]
@[simp] theorem State.taken_credits (c : Cmd) : (s.taken c).credits = s.credits := by rw [State.taken_eq]
@[simp] theorem State.taken_fab (c : Cmd) : (s.taken c).fab = s.fab := by rw [State.taken_eq]
@[simp] theorem State.taken_turns (c : Cmd) : (s.taken c).turns = s.turns := by rw [State.taken_eq]
@[simp] theorem State.taken_mgrants (c : Cmd) : (s.taken c).mgrants = s.mgrants := by rw [State.taken_eq]
@[simp] theorem State.taken_netSlots (c : Cmd) : (s.taken c).netSlots = s.netSlots := by rw [State.taken_eq]
@[simp] theorem State.taken_mvTurn (c : Cmd) : (s.taken c).mvTurn = s.mvTurn := by rw [State.taken_eq]
@[simp] theorem State.taken_flows (c : Cmd) : (s.taken c).flows = s.flows := by rw [State.taken_eq]
@[simp] theorem State.taken_links (c : Cmd) : (s.taken c).links = s.links := by rw [State.taken_eq]
@[simp] theorem State.taken_arrived (c : Cmd) : (s.taken c).arrived = s.arrived := by rw [State.taken_eq]
@[simp] theorem State.taken_forward (c : Cmd) : (s.taken c).forward = s.forward := by rw [State.taken_eq]
@[simp] theorem State.taken_jobs (c : Cmd) : (s.taken c).jobs = s.jobs := by rw [State.taken_eq]
@[simp] theorem State.taken_aborts (c : Cmd) : (s.taken c).aborts = s.aborts := by rw [State.taken_eq]
@[simp] theorem State.taken_cmds (c : Cmd) : (s.taken c).cmds = s.cmds := by rw [State.taken_eq]
@[simp] theorem State.taken_nextCid (c : Cmd) : (s.taken c).nextCid = s.nextCid := by rw [State.taken_eq]
@[simp] theorem State.taken_queues (c : Cmd) : (s.taken c).queues = s.queues := by rw [State.taken_eq]
@[simp] theorem State.taken_versions (c : Cmd) : (s.taken c).versions = s.versions := by rw [State.taken_eq]
@[simp] theorem State.taken_glaunches (c : Cmd) : (s.taken c).glaunches = s.glaunches := by rw [State.taken_eq]
@[simp] theorem State.taken_graphNo (c : Cmd) : (s.taken c).graphNo = s.graphNo := by rw [State.taken_eq]
@[simp] theorem State.taken_mbox (c : Cmd) : (s.taken c).mbox = s.mbox := by rw [State.taken_eq]
@[simp] theorem State.taken_mboxRegs (c : Cmd) : (s.taken c).mboxRegs = s.mboxRegs := by rw [State.taken_eq]
@[simp] theorem State.taken_secure (c : Cmd) : (s.taken c).secure = s.secure := by rw [State.taken_eq]
@[simp] theorem State.taken_d2hHeld (c : Cmd) : (s.taken c).d2hHeld = s.d2hHeld := by rw [State.taken_eq]
@[simp] theorem State.taken_ppRun (c : Cmd) : (s.taken c).ppRun = s.ppRun := by rw [State.taken_eq]
@[simp] theorem State.taken_rcvErased (c : Cmd) : (s.taken c).rcvErased = s.rcvErased := by rw [State.taken_eq]
@[simp] theorem State.taken_ports (c : Cmd) : (s.taken c).ports = s.ports := by rw [State.taken_eq]
@[simp] theorem State.taken_msix (c : Cmd) : (s.taken c).msix = s.msix := by rw [State.taken_eq]
@[simp] theorem State.taken_msixPend (c : Cmd) : (s.taken c).msixPend = s.msixPend := by rw [State.taken_eq]
@[simp] theorem State.taken_out (c : Cmd) : (s.taken c).out = s.out := by rw [State.taken_eq]

/-! ### Packets of an access -/

/-- Sending packets changes at most the packets in the fabric. -/
theorem State.sendTo_eq (cls : FabClass) (idx : Nat) (tr : Traffic) (a b : Station) (addr n : Nat) (read narrow : Bool)
    (part : Option Nat) : s.sendTo cls idx tr a b addr n read narrow part =
      { s with fab := (s.sendTo cls idx tr a b addr n read narrow part).fab } := by
  unfold State.sendTo; dsimp only; split <;> rfl

/-- An access leaves as packets: nothing but the fabric's packets changes. -/
theorem State.send_eq (x : Src) (a n : Nat) (read elem : Bool) :
    s.send x a n read elem = { s with fab := (s.send x a n read elem).fab } := by
  unfold State.send
  split
  · rfl
  · split
    · rfl
    · exact State.sendTo_eq s _ _ _ _ _ _ _ _ _ _

/-- Packets to a host port change nothing but the fabric's packets. -/
theorem State.sendHost_eq (x : Src) (port n : Nat) (read : Bool) :
    s.sendHost x port n read = { s with fab := (s.sendHost x port n read).fab } := State.sendTo_eq s _ _ _ _ _ _ _ _ _ _

@[simp] theorem State.send_regs (x : Src) (a n : Nat) (read elem : Bool) : (s.send x a n read elem).regs = s.regs := by rw [State.send_eq]
@[simp] theorem State.send_pending (x : Src) (a n : Nat) (read elem : Bool) : (s.send x a n read elem).pending = s.pending := by rw [State.send_eq]
@[simp] theorem State.send_free (x : Src) (a n : Nat) (read elem : Bool) : (s.send x a n read elem).free = s.free := by rw [State.send_eq]
@[simp] theorem State.send_mem (x : Src) (a n : Nat) (read elem : Bool) : (s.send x a n read elem).mem = s.mem := by rw [State.send_eq]
@[simp] theorem State.send_ecc (x : Src) (a n : Nat) (read elem : Bool) : (s.send x a n read elem).ecc = s.ecc := by rw [State.send_eq]
@[simp] theorem State.send_mode (x : Src) (a n : Nat) (read elem : Bool) : (s.send x a n read elem).mode = s.mode := by rw [State.send_eq]
@[simp] theorem State.send_alwaysOn (x : Src) (a n : Nat) (read elem : Bool) : (s.send x a n read elem).alwaysOn = s.alwaysOn := by rw [State.send_eq]
@[simp] theorem State.send_resetDue (x : Src) (a n : Nat) (read elem : Bool) : (s.send x a n read elem).resetDue = s.resetDue := by rw [State.send_eq]
@[simp] theorem State.send_watchdog (x : Src) (a n : Nat) (read elem : Bool) : (s.send x a n read elem).watchdog = s.watchdog := by rw [State.send_eq]
@[simp] theorem State.send_power (x : Src) (a n : Nat) (read elem : Bool) : (s.send x a n read elem).power = s.power := by rw [State.send_eq]
@[simp] theorem State.send_flash (x : Src) (a n : Nat) (read elem : Bool) : (s.send x a n read elem).flash = s.flash := by rw [State.send_eq]
@[simp] theorem State.send_fwRunning (x : Src) (a n : Nat) (read elem : Bool) : (s.send x a n read elem).fwRunning = s.fwRunning := by rw [State.send_eq]
@[simp] theorem State.send_applied (x : Src) (a n : Nat) (read elem : Bool) : (s.send x a n read elem).applied = s.applied := by rw [State.send_eq]
@[simp] theorem State.send_appliedImage (x : Src) (a n : Nat) (read elem : Bool) : (s.send x a n read elem).appliedImage = s.appliedImage := by rw [State.send_eq]
@[simp] theorem State.send_seamRetrain (x : Src) (a n : Nat) (read elem : Bool) : (s.send x a n read elem).seamRetrain = s.seamRetrain := by rw [State.send_eq]
@[simp] theorem State.send_domainLost (x : Src) (a n : Nat) (read elem : Bool) : (s.send x a n read elem).domainLost = s.domainLost := by rw [State.send_eq]
@[simp] theorem State.send_tileMap (x : Src) (a n : Nat) (read elem : Bool) : (s.send x a n read elem).tileMap = s.tileMap := by rw [State.send_eq]
@[simp] theorem State.send_tiles (x : Src) (a n : Nat) (read elem : Bool) : (s.send x a n read elem).tiles = s.tiles := by rw [State.send_eq]
@[simp] theorem State.send_chans (x : Src) (a n : Nat) (read elem : Bool) : (s.send x a n read elem).chans = s.chans := by rw [State.send_eq]
@[simp] theorem State.send_hbm (x : Src) (a n : Nat) (read elem : Bool) : (s.send x a n read elem).hbm = s.hbm := by rw [State.send_eq]
@[simp] theorem State.send_tokens (x : Src) (a n : Nat) (read elem : Bool) : (s.send x a n read elem).tokens = s.tokens := by rw [State.send_eq]
@[simp] theorem State.send_cxl (x : Src) (a n : Nat) (read elem : Bool) : (s.send x a n read elem).cxl = s.cxl := by rw [State.send_eq]
@[simp] theorem State.send_arbs (x : Src) (a n : Nat) (read elem : Bool) : (s.send x a n read elem).arbs = s.arbs := by rw [State.send_eq]
@[simp] theorem State.send_credits (x : Src) (a n : Nat) (read elem : Bool) : (s.send x a n read elem).credits = s.credits := by rw [State.send_eq]
@[simp] theorem State.send_turns (x : Src) (a n : Nat) (read elem : Bool) : (s.send x a n read elem).turns = s.turns := by rw [State.send_eq]
@[simp] theorem State.send_mgrants (x : Src) (a n : Nat) (read elem : Bool) : (s.send x a n read elem).mgrants = s.mgrants := by rw [State.send_eq]
@[simp] theorem State.send_netSlots (x : Src) (a n : Nat) (read elem : Bool) : (s.send x a n read elem).netSlots = s.netSlots := by rw [State.send_eq]
@[simp] theorem State.send_mvTurn (x : Src) (a n : Nat) (read elem : Bool) : (s.send x a n read elem).mvTurn = s.mvTurn := by rw [State.send_eq]
@[simp] theorem State.send_flows (x : Src) (a n : Nat) (read elem : Bool) : (s.send x a n read elem).flows = s.flows := by rw [State.send_eq]
@[simp] theorem State.send_links (x : Src) (a n : Nat) (read elem : Bool) : (s.send x a n read elem).links = s.links := by rw [State.send_eq]
@[simp] theorem State.send_arrived (x : Src) (a n : Nat) (read elem : Bool) : (s.send x a n read elem).arrived = s.arrived := by rw [State.send_eq]
@[simp] theorem State.send_forward (x : Src) (a n : Nat) (read elem : Bool) : (s.send x a n read elem).forward = s.forward := by rw [State.send_eq]
@[simp] theorem State.send_jobs (x : Src) (a n : Nat) (read elem : Bool) : (s.send x a n read elem).jobs = s.jobs := by rw [State.send_eq]
@[simp] theorem State.send_aborts (x : Src) (a n : Nat) (read elem : Bool) : (s.send x a n read elem).aborts = s.aborts := by rw [State.send_eq]
@[simp] theorem State.send_cmds (x : Src) (a n : Nat) (read elem : Bool) : (s.send x a n read elem).cmds = s.cmds := by rw [State.send_eq]
@[simp] theorem State.send_nextCid (x : Src) (a n : Nat) (read elem : Bool) : (s.send x a n read elem).nextCid = s.nextCid := by rw [State.send_eq]
@[simp] theorem State.send_queues (x : Src) (a n : Nat) (read elem : Bool) : (s.send x a n read elem).queues = s.queues := by rw [State.send_eq]
@[simp] theorem State.send_qTurn (x : Src) (a n : Nat) (read elem : Bool) : (s.send x a n read elem).qTurn = s.qTurn := by rw [State.send_eq]
@[simp] theorem State.send_versions (x : Src) (a n : Nat) (read elem : Bool) : (s.send x a n read elem).versions = s.versions := by rw [State.send_eq]
@[simp] theorem State.send_glaunches (x : Src) (a n : Nat) (read elem : Bool) : (s.send x a n read elem).glaunches = s.glaunches := by rw [State.send_eq]
@[simp] theorem State.send_graphNo (x : Src) (a n : Nat) (read elem : Bool) : (s.send x a n read elem).graphNo = s.graphNo := by rw [State.send_eq]
@[simp] theorem State.send_mbox (x : Src) (a n : Nat) (read elem : Bool) : (s.send x a n read elem).mbox = s.mbox := by rw [State.send_eq]
@[simp] theorem State.send_mboxRegs (x : Src) (a n : Nat) (read elem : Bool) : (s.send x a n read elem).mboxRegs = s.mboxRegs := by rw [State.send_eq]
@[simp] theorem State.send_secure (x : Src) (a n : Nat) (read elem : Bool) : (s.send x a n read elem).secure = s.secure := by rw [State.send_eq]
@[simp] theorem State.send_d2hHeld (x : Src) (a n : Nat) (read elem : Bool) : (s.send x a n read elem).d2hHeld = s.d2hHeld := by rw [State.send_eq]
@[simp] theorem State.send_ppRun (x : Src) (a n : Nat) (read elem : Bool) : (s.send x a n read elem).ppRun = s.ppRun := by rw [State.send_eq]
@[simp] theorem State.send_rcvErased (x : Src) (a n : Nat) (read elem : Bool) : (s.send x a n read elem).rcvErased = s.rcvErased := by rw [State.send_eq]
@[simp] theorem State.send_ports (x : Src) (a n : Nat) (read elem : Bool) : (s.send x a n read elem).ports = s.ports := by rw [State.send_eq]
@[simp] theorem State.send_msix (x : Src) (a n : Nat) (read elem : Bool) : (s.send x a n read elem).msix = s.msix := by rw [State.send_eq]
@[simp] theorem State.send_msixPend (x : Src) (a n : Nat) (read elem : Bool) : (s.send x a n read elem).msixPend = s.msixPend := by rw [State.send_eq]
@[simp] theorem State.send_out (x : Src) (a n : Nat) (read elem : Bool) : (s.send x a n read elem).out = s.out := by rw [State.send_eq]

@[simp] theorem State.taken_reg (c : Cmd) (o : Nat) : (s.taken c).reg o = s.reg o := by simp [State.reg]
@[simp] theorem State.taken_byte (c : Cmd) (a : Nat) : (s.taken c).byte a = s.byte a := by simp [State.byte]
@[simp] theorem State.send_reg (x : Src) (a n : Nat) (read elem : Bool) (o : Nat) :
    (s.send x a n read elem).reg o = s.reg o := by simp [State.reg]
@[simp] theorem State.send_byte (x : Src) (a n : Nat) (read elem : Bool) (k : Nat) :
    (s.send x a n read elem).byte k = s.byte k := by simp [State.byte]

end Sys2Proof.Machine
end

