-- ==== Sys2Proof/Laws/Interrupt.lean ====
section
/-! SUPPORT. What raising an interrupt can do: it adds to what has left the module or to the vectors held pending, and
changes nothing else (R396). -/
namespace Sys2Proof.Machine

variable (s : State)

theorem State.interrupt_eq (p f v : Nat) :
    s.interrupt p f v = { s with out := (s.interrupt p f v).out, msixPend := (s.interrupt p f v).msixPend } := by
  unfold State.interrupt
  split
  · rfl
  · split <;> rfl

@[simp] theorem State.interrupt_pending (p f v : Nat) : (s.interrupt p f v).pending = s.pending := by rw [State.interrupt_eq]
@[simp] theorem State.interrupt_free (p f v : Nat) : (s.interrupt p f v).free = s.free := by rw [State.interrupt_eq]
@[simp] theorem State.interrupt_regs (p f v : Nat) : (s.interrupt p f v).regs = s.regs := by rw [State.interrupt_eq]
@[simp] theorem State.interrupt_mem (p f v : Nat) : (s.interrupt p f v).mem = s.mem := by rw [State.interrupt_eq]
@[simp] theorem State.interrupt_ecc (p f v : Nat) : (s.interrupt p f v).ecc = s.ecc := by rw [State.interrupt_eq]
@[simp] theorem State.interrupt_mode (p f v : Nat) : (s.interrupt p f v).mode = s.mode := by rw [State.interrupt_eq]
@[simp] theorem State.interrupt_alwaysOn (p f v : Nat) : (s.interrupt p f v).alwaysOn = s.alwaysOn := by rw [State.interrupt_eq]
@[simp] theorem State.interrupt_resetDue (p f v : Nat) : (s.interrupt p f v).resetDue = s.resetDue := by rw [State.interrupt_eq]
@[simp] theorem State.interrupt_watchdog (p f v : Nat) : (s.interrupt p f v).watchdog = s.watchdog := by rw [State.interrupt_eq]
@[simp] theorem State.interrupt_power (p f v : Nat) : (s.interrupt p f v).power = s.power := by rw [State.interrupt_eq]
@[simp] theorem State.interrupt_flash (p f v : Nat) : (s.interrupt p f v).flash = s.flash := by rw [State.interrupt_eq]
@[simp] theorem State.interrupt_fwRunning (p f v : Nat) : (s.interrupt p f v).fwRunning = s.fwRunning := by rw [State.interrupt_eq]
@[simp] theorem State.interrupt_applied (p f v : Nat) : (s.interrupt p f v).applied = s.applied := by rw [State.interrupt_eq]
@[simp] theorem State.interrupt_appliedImage (p f v : Nat) : (s.interrupt p f v).appliedImage = s.appliedImage := by rw [State.interrupt_eq]
@[simp] theorem State.interrupt_seamRetrain (p f v : Nat) : (s.interrupt p f v).seamRetrain = s.seamRetrain := by rw [State.interrupt_eq]
@[simp] theorem State.interrupt_tiles (p f v : Nat) : (s.interrupt p f v).tiles = s.tiles := by rw [State.interrupt_eq]
@[simp] theorem State.interrupt_chans (p f v : Nat) : (s.interrupt p f v).chans = s.chans := by rw [State.interrupt_eq]
@[simp] theorem State.interrupt_hbm (p f v : Nat) : (s.interrupt p f v).hbm = s.hbm := by rw [State.interrupt_eq]
@[simp] theorem State.interrupt_tokens (p f v : Nat) : (s.interrupt p f v).tokens = s.tokens := by rw [State.interrupt_eq]
@[simp] theorem State.interrupt_cxl (p f v : Nat) : (s.interrupt p f v).cxl = s.cxl := by rw [State.interrupt_eq]
@[simp] theorem State.interrupt_arbs (p f v : Nat) : (s.interrupt p f v).arbs = s.arbs := by rw [State.interrupt_eq]
@[simp] theorem State.interrupt_credits (p f v : Nat) : (s.interrupt p f v).credits = s.credits := by rw [State.interrupt_eq]
@[simp] theorem State.interrupt_flows (p f v : Nat) : (s.interrupt p f v).flows = s.flows := by rw [State.interrupt_eq]
@[simp] theorem State.interrupt_links (p f v : Nat) : (s.interrupt p f v).links = s.links := by rw [State.interrupt_eq]
@[simp] theorem State.interrupt_arrived (p f v : Nat) : (s.interrupt p f v).arrived = s.arrived := by rw [State.interrupt_eq]
@[simp] theorem State.interrupt_forward (p f v : Nat) : (s.interrupt p f v).forward = s.forward := by rw [State.interrupt_eq]
@[simp] theorem State.interrupt_jobs (p f v : Nat) : (s.interrupt p f v).jobs = s.jobs := by rw [State.interrupt_eq]
@[simp] theorem State.interrupt_aborts (p f v : Nat) : (s.interrupt p f v).aborts = s.aborts := by rw [State.interrupt_eq]
@[simp] theorem State.interrupt_cmds (p f v : Nat) : (s.interrupt p f v).cmds = s.cmds := by rw [State.interrupt_eq]
@[simp] theorem State.interrupt_nextCid (p f v : Nat) : (s.interrupt p f v).nextCid = s.nextCid := by rw [State.interrupt_eq]
@[simp] theorem State.interrupt_queues (p f v : Nat) : (s.interrupt p f v).queues = s.queues := by rw [State.interrupt_eq]
@[simp] theorem State.interrupt_versions (p f v : Nat) : (s.interrupt p f v).versions = s.versions := by rw [State.interrupt_eq]
@[simp] theorem State.interrupt_glaunches (p f v : Nat) : (s.interrupt p f v).glaunches = s.glaunches := by rw [State.interrupt_eq]
@[simp] theorem State.interrupt_graphNo (p f v : Nat) : (s.interrupt p f v).graphNo = s.graphNo := by rw [State.interrupt_eq]
@[simp] theorem State.interrupt_mbox (p f v : Nat) : (s.interrupt p f v).mbox = s.mbox := by rw [State.interrupt_eq]
@[simp] theorem State.interrupt_mboxRegs (p f v : Nat) : (s.interrupt p f v).mboxRegs = s.mboxRegs := by rw [State.interrupt_eq]
@[simp] theorem State.interrupt_secure (p f v : Nat) : (s.interrupt p f v).secure = s.secure := by rw [State.interrupt_eq]
@[simp] theorem State.interrupt_d2hHeld (p f v : Nat) : (s.interrupt p f v).d2hHeld = s.d2hHeld := by rw [State.interrupt_eq]
@[simp] theorem State.interrupt_ppRun (p f v : Nat) : (s.interrupt p f v).ppRun = s.ppRun := by rw [State.interrupt_eq]
@[simp] theorem State.interrupt_rcvErased (p f v : Nat) : (s.interrupt p f v).rcvErased = s.rcvErased := by rw [State.interrupt_eq]
@[simp] theorem State.interrupt_ports (p f v : Nat) : (s.interrupt p f v).ports = s.ports := by rw [State.interrupt_eq]
@[simp] theorem State.interrupt_msix (p f v : Nat) : (s.interrupt p f v).msix = s.msix := by rw [State.interrupt_eq]
@[simp] theorem State.interrupt_read_reg (p f v : Nat) (k : Nat) : (s.interrupt p f v).reg k = s.reg k := by
  simp only [State.reg, State.interrupt_regs]
@[simp] theorem State.interrupt_read_byte (p f v : Nat) (k : Nat) : (s.interrupt p f v).byte k = s.byte k := by
  simp only [State.byte, State.interrupt_mem]
@[simp] theorem State.interrupt_read_bytes (p f v : Nat) (k m : Nat) : (s.interrupt p f v).bytes k m = s.bytes k m := by
  simp only [State.bytes, State.byte, State.interrupt_mem]
@[simp] theorem State.interrupt_read_tile (p f v : Nat) (k : Nat) : (s.interrupt p f v).tile k = s.tile k := by
  simp only [State.tile, State.interrupt_tiles]
@[simp] theorem State.interrupt_read_chan (p f v : Nat) (k : Nat) : (s.interrupt p f v).chan k = s.chan k := by
  simp only [State.chan, State.interrupt_chans]
@[simp] theorem State.interrupt_read_stack (p f v : Nat) (k : Nat) : (s.interrupt p f v).stack k = s.stack k := by
  simp only [State.stack, State.interrupt_hbm]
@[simp] theorem State.interrupt_read_flow (p f v : Nat) (k : Nat) : (s.interrupt p f v).flow k = s.flow k := by
  simp only [State.flow, State.interrupt_flows]
@[simp] theorem State.interrupt_read_link (p f v : Nat) (k l : Nat) : (s.interrupt p f v).link k l = s.link k l := by
  simp only [State.link, State.interrupt_links]
@[simp] theorem State.interrupt_read_queue (p f v : Nat) (k : Nat) : (s.interrupt p f v).queue k = s.queue k := by
  simp only [State.queue, State.interrupt_queues]
@[simp] theorem State.interrupt_read_mail (p f v : Nat) (k l m : Nat) : (s.interrupt p f v).mail k l m = s.mail k l m := by
  simp only [State.mail, State.interrupt_mbox]
@[simp] theorem State.interrupt_read_port (p f v : Nat) (k : Nat) : (s.interrupt p f v).port k = s.port k := by
  simp only [State.port, State.interrupt_ports]
@[simp] theorem State.interrupt_read_cmd (p f v : Nat) (k : Nat) : (s.interrupt p f v).cmd? k = s.cmd? k := by
  simp only [State.cmd?, State.interrupt_cmds]
@[simp] theorem State.interrupt_read_mboxReg (p f v : Nat) (k l : Nat) : (s.interrupt p f v).mboxReg k l = s.mboxReg k l := by
  simp only [State.mboxReg, State.interrupt_mboxRegs]
@[simp] theorem State.interrupt_read_eccAt (p f v : Nat) (k : Nat) : (s.interrupt p f v).eccAt k = s.eccAt k := by
  simp only [State.eccAt, State.interrupt_ecc]

theorem State.routeInt_eq (p n : Nat) :
    s.routeInt p n = { s with out := (s.routeInt p n).out, msixPend := (s.routeInt p n).msixPend } := by
  unfold State.routeInt
  dsimp only
  split
  · rw [State.interrupt_eq]
  · rfl

@[simp] theorem State.routeInt_pending (p n : Nat) : (s.routeInt p n).pending = s.pending := by rw [State.routeInt_eq]
@[simp] theorem State.routeInt_free (p n : Nat) : (s.routeInt p n).free = s.free := by rw [State.routeInt_eq]
@[simp] theorem State.routeInt_regs (p n : Nat) : (s.routeInt p n).regs = s.regs := by rw [State.routeInt_eq]
@[simp] theorem State.routeInt_mem (p n : Nat) : (s.routeInt p n).mem = s.mem := by rw [State.routeInt_eq]
@[simp] theorem State.routeInt_ecc (p n : Nat) : (s.routeInt p n).ecc = s.ecc := by rw [State.routeInt_eq]
@[simp] theorem State.routeInt_mode (p n : Nat) : (s.routeInt p n).mode = s.mode := by rw [State.routeInt_eq]
@[simp] theorem State.routeInt_alwaysOn (p n : Nat) : (s.routeInt p n).alwaysOn = s.alwaysOn := by rw [State.routeInt_eq]
@[simp] theorem State.routeInt_resetDue (p n : Nat) : (s.routeInt p n).resetDue = s.resetDue := by rw [State.routeInt_eq]
@[simp] theorem State.routeInt_watchdog (p n : Nat) : (s.routeInt p n).watchdog = s.watchdog := by rw [State.routeInt_eq]
@[simp] theorem State.routeInt_power (p n : Nat) : (s.routeInt p n).power = s.power := by rw [State.routeInt_eq]
@[simp] theorem State.routeInt_flash (p n : Nat) : (s.routeInt p n).flash = s.flash := by rw [State.routeInt_eq]
@[simp] theorem State.routeInt_fwRunning (p n : Nat) : (s.routeInt p n).fwRunning = s.fwRunning := by rw [State.routeInt_eq]
@[simp] theorem State.routeInt_applied (p n : Nat) : (s.routeInt p n).applied = s.applied := by rw [State.routeInt_eq]
@[simp] theorem State.routeInt_appliedImage (p n : Nat) : (s.routeInt p n).appliedImage = s.appliedImage := by rw [State.routeInt_eq]
@[simp] theorem State.routeInt_seamRetrain (p n : Nat) : (s.routeInt p n).seamRetrain = s.seamRetrain := by rw [State.routeInt_eq]
@[simp] theorem State.routeInt_tiles (p n : Nat) : (s.routeInt p n).tiles = s.tiles := by rw [State.routeInt_eq]
@[simp] theorem State.routeInt_chans (p n : Nat) : (s.routeInt p n).chans = s.chans := by rw [State.routeInt_eq]
@[simp] theorem State.routeInt_hbm (p n : Nat) : (s.routeInt p n).hbm = s.hbm := by rw [State.routeInt_eq]
@[simp] theorem State.routeInt_tokens (p n : Nat) : (s.routeInt p n).tokens = s.tokens := by rw [State.routeInt_eq]
@[simp] theorem State.routeInt_cxl (p n : Nat) : (s.routeInt p n).cxl = s.cxl := by rw [State.routeInt_eq]
@[simp] theorem State.routeInt_arbs (p n : Nat) : (s.routeInt p n).arbs = s.arbs := by rw [State.routeInt_eq]
@[simp] theorem State.routeInt_credits (p n : Nat) : (s.routeInt p n).credits = s.credits := by rw [State.routeInt_eq]
@[simp] theorem State.routeInt_flows (p n : Nat) : (s.routeInt p n).flows = s.flows := by rw [State.routeInt_eq]
@[simp] theorem State.routeInt_links (p n : Nat) : (s.routeInt p n).links = s.links := by rw [State.routeInt_eq]
@[simp] theorem State.routeInt_arrived (p n : Nat) : (s.routeInt p n).arrived = s.arrived := by rw [State.routeInt_eq]
@[simp] theorem State.routeInt_forward (p n : Nat) : (s.routeInt p n).forward = s.forward := by rw [State.routeInt_eq]
@[simp] theorem State.routeInt_jobs (p n : Nat) : (s.routeInt p n).jobs = s.jobs := by rw [State.routeInt_eq]
@[simp] theorem State.routeInt_aborts (p n : Nat) : (s.routeInt p n).aborts = s.aborts := by rw [State.routeInt_eq]
@[simp] theorem State.routeInt_cmds (p n : Nat) : (s.routeInt p n).cmds = s.cmds := by rw [State.routeInt_eq]
@[simp] theorem State.routeInt_nextCid (p n : Nat) : (s.routeInt p n).nextCid = s.nextCid := by rw [State.routeInt_eq]
@[simp] theorem State.routeInt_queues (p n : Nat) : (s.routeInt p n).queues = s.queues := by rw [State.routeInt_eq]
@[simp] theorem State.routeInt_versions (p n : Nat) : (s.routeInt p n).versions = s.versions := by rw [State.routeInt_eq]
@[simp] theorem State.routeInt_glaunches (p n : Nat) : (s.routeInt p n).glaunches = s.glaunches := by rw [State.routeInt_eq]
@[simp] theorem State.routeInt_graphNo (p n : Nat) : (s.routeInt p n).graphNo = s.graphNo := by rw [State.routeInt_eq]
@[simp] theorem State.routeInt_mbox (p n : Nat) : (s.routeInt p n).mbox = s.mbox := by rw [State.routeInt_eq]
@[simp] theorem State.routeInt_mboxRegs (p n : Nat) : (s.routeInt p n).mboxRegs = s.mboxRegs := by rw [State.routeInt_eq]
@[simp] theorem State.routeInt_secure (p n : Nat) : (s.routeInt p n).secure = s.secure := by rw [State.routeInt_eq]
@[simp] theorem State.routeInt_d2hHeld (p n : Nat) : (s.routeInt p n).d2hHeld = s.d2hHeld := by rw [State.routeInt_eq]
@[simp] theorem State.routeInt_ppRun (p n : Nat) : (s.routeInt p n).ppRun = s.ppRun := by rw [State.routeInt_eq]
@[simp] theorem State.routeInt_rcvErased (p n : Nat) : (s.routeInt p n).rcvErased = s.rcvErased := by rw [State.routeInt_eq]
@[simp] theorem State.routeInt_ports (p n : Nat) : (s.routeInt p n).ports = s.ports := by rw [State.routeInt_eq]
@[simp] theorem State.routeInt_msix (p n : Nat) : (s.routeInt p n).msix = s.msix := by rw [State.routeInt_eq]
@[simp] theorem State.routeInt_read_reg (p n : Nat) (k : Nat) : (s.routeInt p n).reg k = s.reg k := by
  simp only [State.reg, State.routeInt_regs]
@[simp] theorem State.routeInt_read_byte (p n : Nat) (k : Nat) : (s.routeInt p n).byte k = s.byte k := by
  simp only [State.byte, State.routeInt_mem]
@[simp] theorem State.routeInt_read_bytes (p n : Nat) (k m : Nat) : (s.routeInt p n).bytes k m = s.bytes k m := by
  simp only [State.bytes, State.byte, State.routeInt_mem]
@[simp] theorem State.routeInt_read_tile (p n : Nat) (k : Nat) : (s.routeInt p n).tile k = s.tile k := by
  simp only [State.tile, State.routeInt_tiles]
@[simp] theorem State.routeInt_read_chan (p n : Nat) (k : Nat) : (s.routeInt p n).chan k = s.chan k := by
  simp only [State.chan, State.routeInt_chans]
@[simp] theorem State.routeInt_read_stack (p n : Nat) (k : Nat) : (s.routeInt p n).stack k = s.stack k := by
  simp only [State.stack, State.routeInt_hbm]
@[simp] theorem State.routeInt_read_flow (p n : Nat) (k : Nat) : (s.routeInt p n).flow k = s.flow k := by
  simp only [State.flow, State.routeInt_flows]
@[simp] theorem State.routeInt_read_link (p n : Nat) (k l : Nat) : (s.routeInt p n).link k l = s.link k l := by
  simp only [State.link, State.routeInt_links]
@[simp] theorem State.routeInt_read_queue (p n : Nat) (k : Nat) : (s.routeInt p n).queue k = s.queue k := by
  simp only [State.queue, State.routeInt_queues]
@[simp] theorem State.routeInt_read_mail (p n : Nat) (k l m : Nat) : (s.routeInt p n).mail k l m = s.mail k l m := by
  simp only [State.mail, State.routeInt_mbox]
@[simp] theorem State.routeInt_read_port (p n : Nat) (k : Nat) : (s.routeInt p n).port k = s.port k := by
  simp only [State.port, State.routeInt_ports]
@[simp] theorem State.routeInt_read_cmd (p n : Nat) (k : Nat) : (s.routeInt p n).cmd? k = s.cmd? k := by
  simp only [State.cmd?, State.routeInt_cmds]
@[simp] theorem State.routeInt_read_mboxReg (p n : Nat) (k l : Nat) : (s.routeInt p n).mboxReg k l = s.mboxReg k l := by
  simp only [State.mboxReg, State.routeInt_mboxRegs]
@[simp] theorem State.routeInt_read_eccAt (p n : Nat) (k : Nat) : (s.routeInt p n).eccAt k = s.eccAt k := by
  simp only [State.eccAt, State.routeInt_ecc]

theorem State.chanInt_eq (c : Nat) :
    s.chanInt c = { s with out := (s.chanInt c).out, msixPend := (s.chanInt c).msixPend } := by
  unfold State.chanInt
  split
  · split <;> rw [State.routeInt_eq]
  · rw [State.routeInt_eq]

@[simp] theorem State.chanInt_pending (c : Nat) : (s.chanInt c).pending = s.pending := by rw [State.chanInt_eq]
@[simp] theorem State.chanInt_free (c : Nat) : (s.chanInt c).free = s.free := by rw [State.chanInt_eq]
@[simp] theorem State.chanInt_regs (c : Nat) : (s.chanInt c).regs = s.regs := by rw [State.chanInt_eq]
@[simp] theorem State.chanInt_mem (c : Nat) : (s.chanInt c).mem = s.mem := by rw [State.chanInt_eq]
@[simp] theorem State.chanInt_ecc (c : Nat) : (s.chanInt c).ecc = s.ecc := by rw [State.chanInt_eq]
@[simp] theorem State.chanInt_mode (c : Nat) : (s.chanInt c).mode = s.mode := by rw [State.chanInt_eq]
@[simp] theorem State.chanInt_alwaysOn (c : Nat) : (s.chanInt c).alwaysOn = s.alwaysOn := by rw [State.chanInt_eq]
@[simp] theorem State.chanInt_resetDue (c : Nat) : (s.chanInt c).resetDue = s.resetDue := by rw [State.chanInt_eq]
@[simp] theorem State.chanInt_watchdog (c : Nat) : (s.chanInt c).watchdog = s.watchdog := by rw [State.chanInt_eq]
@[simp] theorem State.chanInt_power (c : Nat) : (s.chanInt c).power = s.power := by rw [State.chanInt_eq]
@[simp] theorem State.chanInt_flash (c : Nat) : (s.chanInt c).flash = s.flash := by rw [State.chanInt_eq]
@[simp] theorem State.chanInt_fwRunning (c : Nat) : (s.chanInt c).fwRunning = s.fwRunning := by rw [State.chanInt_eq]
@[simp] theorem State.chanInt_applied (c : Nat) : (s.chanInt c).applied = s.applied := by rw [State.chanInt_eq]
@[simp] theorem State.chanInt_appliedImage (c : Nat) : (s.chanInt c).appliedImage = s.appliedImage := by rw [State.chanInt_eq]
@[simp] theorem State.chanInt_seamRetrain (c : Nat) : (s.chanInt c).seamRetrain = s.seamRetrain := by rw [State.chanInt_eq]
@[simp] theorem State.chanInt_tiles (c : Nat) : (s.chanInt c).tiles = s.tiles := by rw [State.chanInt_eq]
@[simp] theorem State.chanInt_chans (c : Nat) : (s.chanInt c).chans = s.chans := by rw [State.chanInt_eq]
@[simp] theorem State.chanInt_hbm (c : Nat) : (s.chanInt c).hbm = s.hbm := by rw [State.chanInt_eq]
@[simp] theorem State.chanInt_tokens (c : Nat) : (s.chanInt c).tokens = s.tokens := by rw [State.chanInt_eq]
@[simp] theorem State.chanInt_cxl (c : Nat) : (s.chanInt c).cxl = s.cxl := by rw [State.chanInt_eq]
@[simp] theorem State.chanInt_arbs (c : Nat) : (s.chanInt c).arbs = s.arbs := by rw [State.chanInt_eq]
@[simp] theorem State.chanInt_credits (c : Nat) : (s.chanInt c).credits = s.credits := by rw [State.chanInt_eq]
@[simp] theorem State.chanInt_flows (c : Nat) : (s.chanInt c).flows = s.flows := by rw [State.chanInt_eq]
@[simp] theorem State.chanInt_links (c : Nat) : (s.chanInt c).links = s.links := by rw [State.chanInt_eq]
@[simp] theorem State.chanInt_arrived (c : Nat) : (s.chanInt c).arrived = s.arrived := by rw [State.chanInt_eq]
@[simp] theorem State.chanInt_forward (c : Nat) : (s.chanInt c).forward = s.forward := by rw [State.chanInt_eq]
@[simp] theorem State.chanInt_jobs (c : Nat) : (s.chanInt c).jobs = s.jobs := by rw [State.chanInt_eq]
@[simp] theorem State.chanInt_aborts (c : Nat) : (s.chanInt c).aborts = s.aborts := by rw [State.chanInt_eq]
@[simp] theorem State.chanInt_cmds (c : Nat) : (s.chanInt c).cmds = s.cmds := by rw [State.chanInt_eq]
@[simp] theorem State.chanInt_nextCid (c : Nat) : (s.chanInt c).nextCid = s.nextCid := by rw [State.chanInt_eq]
@[simp] theorem State.chanInt_queues (c : Nat) : (s.chanInt c).queues = s.queues := by rw [State.chanInt_eq]
@[simp] theorem State.chanInt_versions (c : Nat) : (s.chanInt c).versions = s.versions := by rw [State.chanInt_eq]
@[simp] theorem State.chanInt_glaunches (c : Nat) : (s.chanInt c).glaunches = s.glaunches := by rw [State.chanInt_eq]
@[simp] theorem State.chanInt_graphNo (c : Nat) : (s.chanInt c).graphNo = s.graphNo := by rw [State.chanInt_eq]
@[simp] theorem State.chanInt_mbox (c : Nat) : (s.chanInt c).mbox = s.mbox := by rw [State.chanInt_eq]
@[simp] theorem State.chanInt_mboxRegs (c : Nat) : (s.chanInt c).mboxRegs = s.mboxRegs := by rw [State.chanInt_eq]
@[simp] theorem State.chanInt_secure (c : Nat) : (s.chanInt c).secure = s.secure := by rw [State.chanInt_eq]
@[simp] theorem State.chanInt_d2hHeld (c : Nat) : (s.chanInt c).d2hHeld = s.d2hHeld := by rw [State.chanInt_eq]
@[simp] theorem State.chanInt_ppRun (c : Nat) : (s.chanInt c).ppRun = s.ppRun := by rw [State.chanInt_eq]
@[simp] theorem State.chanInt_rcvErased (c : Nat) : (s.chanInt c).rcvErased = s.rcvErased := by rw [State.chanInt_eq]
@[simp] theorem State.chanInt_ports (c : Nat) : (s.chanInt c).ports = s.ports := by rw [State.chanInt_eq]
@[simp] theorem State.chanInt_msix (c : Nat) : (s.chanInt c).msix = s.msix := by rw [State.chanInt_eq]
@[simp] theorem State.chanInt_read_reg (c : Nat) (k : Nat) : (s.chanInt c).reg k = s.reg k := by
  simp only [State.reg, State.chanInt_regs]
@[simp] theorem State.chanInt_read_byte (c : Nat) (k : Nat) : (s.chanInt c).byte k = s.byte k := by
  simp only [State.byte, State.chanInt_mem]
@[simp] theorem State.chanInt_read_bytes (c : Nat) (k m : Nat) : (s.chanInt c).bytes k m = s.bytes k m := by
  simp only [State.bytes, State.byte, State.chanInt_mem]
@[simp] theorem State.chanInt_read_tile (c : Nat) (k : Nat) : (s.chanInt c).tile k = s.tile k := by
  simp only [State.tile, State.chanInt_tiles]
@[simp] theorem State.chanInt_read_chan (c : Nat) (k : Nat) : (s.chanInt c).chan k = s.chan k := by
  simp only [State.chan, State.chanInt_chans]
@[simp] theorem State.chanInt_read_stack (c : Nat) (k : Nat) : (s.chanInt c).stack k = s.stack k := by
  simp only [State.stack, State.chanInt_hbm]
@[simp] theorem State.chanInt_read_flow (c : Nat) (k : Nat) : (s.chanInt c).flow k = s.flow k := by
  simp only [State.flow, State.chanInt_flows]
@[simp] theorem State.chanInt_read_link (c : Nat) (k l : Nat) : (s.chanInt c).link k l = s.link k l := by
  simp only [State.link, State.chanInt_links]
@[simp] theorem State.chanInt_read_queue (c : Nat) (k : Nat) : (s.chanInt c).queue k = s.queue k := by
  simp only [State.queue, State.chanInt_queues]
@[simp] theorem State.chanInt_read_mail (c : Nat) (k l m : Nat) : (s.chanInt c).mail k l m = s.mail k l m := by
  simp only [State.mail, State.chanInt_mbox]
@[simp] theorem State.chanInt_read_port (c : Nat) (k : Nat) : (s.chanInt c).port k = s.port k := by
  simp only [State.port, State.chanInt_ports]
@[simp] theorem State.chanInt_read_cmd (c : Nat) (k : Nat) : (s.chanInt c).cmd? k = s.cmd? k := by
  simp only [State.cmd?, State.chanInt_cmds]
@[simp] theorem State.chanInt_read_mboxReg (c : Nat) (k l : Nat) : (s.chanInt c).mboxReg k l = s.mboxReg k l := by
  simp only [State.mboxReg, State.chanInt_mboxRegs]
@[simp] theorem State.chanInt_read_eccAt (c : Nat) (k : Nat) : (s.chanInt c).eccAt k = s.eccAt k := by
  simp only [State.eccAt, State.chanInt_ecc]

theorem State.stackInt_eq (c : Nat) :
    s.stackInt c = { s with out := (s.stackInt c).out, msixPend := (s.stackInt c).msixPend } := by
  unfold State.stackInt
  split <;> rw [State.routeInt_eq]

@[simp] theorem State.stackInt_pending (c : Nat) : (s.stackInt c).pending = s.pending := by rw [State.stackInt_eq]
@[simp] theorem State.stackInt_free (c : Nat) : (s.stackInt c).free = s.free := by rw [State.stackInt_eq]
@[simp] theorem State.stackInt_regs (c : Nat) : (s.stackInt c).regs = s.regs := by rw [State.stackInt_eq]
@[simp] theorem State.stackInt_mem (c : Nat) : (s.stackInt c).mem = s.mem := by rw [State.stackInt_eq]
@[simp] theorem State.stackInt_ecc (c : Nat) : (s.stackInt c).ecc = s.ecc := by rw [State.stackInt_eq]
@[simp] theorem State.stackInt_mode (c : Nat) : (s.stackInt c).mode = s.mode := by rw [State.stackInt_eq]
@[simp] theorem State.stackInt_alwaysOn (c : Nat) : (s.stackInt c).alwaysOn = s.alwaysOn := by rw [State.stackInt_eq]
@[simp] theorem State.stackInt_resetDue (c : Nat) : (s.stackInt c).resetDue = s.resetDue := by rw [State.stackInt_eq]
@[simp] theorem State.stackInt_watchdog (c : Nat) : (s.stackInt c).watchdog = s.watchdog := by rw [State.stackInt_eq]
@[simp] theorem State.stackInt_power (c : Nat) : (s.stackInt c).power = s.power := by rw [State.stackInt_eq]
@[simp] theorem State.stackInt_flash (c : Nat) : (s.stackInt c).flash = s.flash := by rw [State.stackInt_eq]
@[simp] theorem State.stackInt_fwRunning (c : Nat) : (s.stackInt c).fwRunning = s.fwRunning := by rw [State.stackInt_eq]
@[simp] theorem State.stackInt_applied (c : Nat) : (s.stackInt c).applied = s.applied := by rw [State.stackInt_eq]
@[simp] theorem State.stackInt_appliedImage (c : Nat) : (s.stackInt c).appliedImage = s.appliedImage := by rw [State.stackInt_eq]
@[simp] theorem State.stackInt_seamRetrain (c : Nat) : (s.stackInt c).seamRetrain = s.seamRetrain := by rw [State.stackInt_eq]
@[simp] theorem State.stackInt_tiles (c : Nat) : (s.stackInt c).tiles = s.tiles := by rw [State.stackInt_eq]
@[simp] theorem State.stackInt_chans (c : Nat) : (s.stackInt c).chans = s.chans := by rw [State.stackInt_eq]
@[simp] theorem State.stackInt_hbm (c : Nat) : (s.stackInt c).hbm = s.hbm := by rw [State.stackInt_eq]
@[simp] theorem State.stackInt_tokens (c : Nat) : (s.stackInt c).tokens = s.tokens := by rw [State.stackInt_eq]
@[simp] theorem State.stackInt_cxl (c : Nat) : (s.stackInt c).cxl = s.cxl := by rw [State.stackInt_eq]
@[simp] theorem State.stackInt_arbs (c : Nat) : (s.stackInt c).arbs = s.arbs := by rw [State.stackInt_eq]
@[simp] theorem State.stackInt_credits (c : Nat) : (s.stackInt c).credits = s.credits := by rw [State.stackInt_eq]
@[simp] theorem State.stackInt_flows (c : Nat) : (s.stackInt c).flows = s.flows := by rw [State.stackInt_eq]
@[simp] theorem State.stackInt_links (c : Nat) : (s.stackInt c).links = s.links := by rw [State.stackInt_eq]
@[simp] theorem State.stackInt_arrived (c : Nat) : (s.stackInt c).arrived = s.arrived := by rw [State.stackInt_eq]
@[simp] theorem State.stackInt_forward (c : Nat) : (s.stackInt c).forward = s.forward := by rw [State.stackInt_eq]
@[simp] theorem State.stackInt_jobs (c : Nat) : (s.stackInt c).jobs = s.jobs := by rw [State.stackInt_eq]
@[simp] theorem State.stackInt_aborts (c : Nat) : (s.stackInt c).aborts = s.aborts := by rw [State.stackInt_eq]
@[simp] theorem State.stackInt_cmds (c : Nat) : (s.stackInt c).cmds = s.cmds := by rw [State.stackInt_eq]
@[simp] theorem State.stackInt_nextCid (c : Nat) : (s.stackInt c).nextCid = s.nextCid := by rw [State.stackInt_eq]
@[simp] theorem State.stackInt_queues (c : Nat) : (s.stackInt c).queues = s.queues := by rw [State.stackInt_eq]
@[simp] theorem State.stackInt_versions (c : Nat) : (s.stackInt c).versions = s.versions := by rw [State.stackInt_eq]
@[simp] theorem State.stackInt_glaunches (c : Nat) : (s.stackInt c).glaunches = s.glaunches := by rw [State.stackInt_eq]
@[simp] theorem State.stackInt_graphNo (c : Nat) : (s.stackInt c).graphNo = s.graphNo := by rw [State.stackInt_eq]
@[simp] theorem State.stackInt_mbox (c : Nat) : (s.stackInt c).mbox = s.mbox := by rw [State.stackInt_eq]
@[simp] theorem State.stackInt_mboxRegs (c : Nat) : (s.stackInt c).mboxRegs = s.mboxRegs := by rw [State.stackInt_eq]
@[simp] theorem State.stackInt_secure (c : Nat) : (s.stackInt c).secure = s.secure := by rw [State.stackInt_eq]
@[simp] theorem State.stackInt_d2hHeld (c : Nat) : (s.stackInt c).d2hHeld = s.d2hHeld := by rw [State.stackInt_eq]
@[simp] theorem State.stackInt_ppRun (c : Nat) : (s.stackInt c).ppRun = s.ppRun := by rw [State.stackInt_eq]
@[simp] theorem State.stackInt_rcvErased (c : Nat) : (s.stackInt c).rcvErased = s.rcvErased := by rw [State.stackInt_eq]
@[simp] theorem State.stackInt_ports (c : Nat) : (s.stackInt c).ports = s.ports := by rw [State.stackInt_eq]
@[simp] theorem State.stackInt_msix (c : Nat) : (s.stackInt c).msix = s.msix := by rw [State.stackInt_eq]
@[simp] theorem State.stackInt_read_reg (c : Nat) (k : Nat) : (s.stackInt c).reg k = s.reg k := by
  simp only [State.reg, State.stackInt_regs]
@[simp] theorem State.stackInt_read_byte (c : Nat) (k : Nat) : (s.stackInt c).byte k = s.byte k := by
  simp only [State.byte, State.stackInt_mem]
@[simp] theorem State.stackInt_read_bytes (c : Nat) (k m : Nat) : (s.stackInt c).bytes k m = s.bytes k m := by
  simp only [State.bytes, State.byte, State.stackInt_mem]
@[simp] theorem State.stackInt_read_tile (c : Nat) (k : Nat) : (s.stackInt c).tile k = s.tile k := by
  simp only [State.tile, State.stackInt_tiles]
@[simp] theorem State.stackInt_read_chan (c : Nat) (k : Nat) : (s.stackInt c).chan k = s.chan k := by
  simp only [State.chan, State.stackInt_chans]
@[simp] theorem State.stackInt_read_stack (c : Nat) (k : Nat) : (s.stackInt c).stack k = s.stack k := by
  simp only [State.stack, State.stackInt_hbm]
@[simp] theorem State.stackInt_read_flow (c : Nat) (k : Nat) : (s.stackInt c).flow k = s.flow k := by
  simp only [State.flow, State.stackInt_flows]
@[simp] theorem State.stackInt_read_link (c : Nat) (k l : Nat) : (s.stackInt c).link k l = s.link k l := by
  simp only [State.link, State.stackInt_links]
@[simp] theorem State.stackInt_read_queue (c : Nat) (k : Nat) : (s.stackInt c).queue k = s.queue k := by
  simp only [State.queue, State.stackInt_queues]
@[simp] theorem State.stackInt_read_mail (c : Nat) (k l m : Nat) : (s.stackInt c).mail k l m = s.mail k l m := by
  simp only [State.mail, State.stackInt_mbox]
@[simp] theorem State.stackInt_read_port (c : Nat) (k : Nat) : (s.stackInt c).port k = s.port k := by
  simp only [State.port, State.stackInt_ports]
@[simp] theorem State.stackInt_read_cmd (c : Nat) (k : Nat) : (s.stackInt c).cmd? k = s.cmd? k := by
  simp only [State.cmd?, State.stackInt_cmds]
@[simp] theorem State.stackInt_read_mboxReg (c : Nat) (k l : Nat) : (s.stackInt c).mboxReg k l = s.mboxReg k l := by
  simp only [State.mboxReg, State.stackInt_mboxRegs]
@[simp] theorem State.stackInt_read_eccAt (c : Nat) (k : Nat) : (s.stackInt c).eccAt k = s.eccAt k := by
  simp only [State.eccAt, State.stackInt_ecc]

theorem State.moduleInt_eq (n : Nat) :
    s.moduleInt n = { s with out := (s.moduleInt n).out, msixPend := (s.moduleInt n).msixPend } := by
  unfold State.moduleInt
  split
  · rw [State.routeInt_eq, State.routeInt_eq s]
  · rw [State.routeInt_eq]

@[simp] theorem State.moduleInt_pending (n : Nat) : (s.moduleInt n).pending = s.pending := by rw [State.moduleInt_eq]
@[simp] theorem State.moduleInt_free (n : Nat) : (s.moduleInt n).free = s.free := by rw [State.moduleInt_eq]
@[simp] theorem State.moduleInt_regs (n : Nat) : (s.moduleInt n).regs = s.regs := by rw [State.moduleInt_eq]
@[simp] theorem State.moduleInt_mem (n : Nat) : (s.moduleInt n).mem = s.mem := by rw [State.moduleInt_eq]
@[simp] theorem State.moduleInt_ecc (n : Nat) : (s.moduleInt n).ecc = s.ecc := by rw [State.moduleInt_eq]
@[simp] theorem State.moduleInt_mode (n : Nat) : (s.moduleInt n).mode = s.mode := by rw [State.moduleInt_eq]
@[simp] theorem State.moduleInt_alwaysOn (n : Nat) : (s.moduleInt n).alwaysOn = s.alwaysOn := by rw [State.moduleInt_eq]
@[simp] theorem State.moduleInt_resetDue (n : Nat) : (s.moduleInt n).resetDue = s.resetDue := by rw [State.moduleInt_eq]
@[simp] theorem State.moduleInt_watchdog (n : Nat) : (s.moduleInt n).watchdog = s.watchdog := by rw [State.moduleInt_eq]
@[simp] theorem State.moduleInt_power (n : Nat) : (s.moduleInt n).power = s.power := by rw [State.moduleInt_eq]
@[simp] theorem State.moduleInt_flash (n : Nat) : (s.moduleInt n).flash = s.flash := by rw [State.moduleInt_eq]
@[simp] theorem State.moduleInt_fwRunning (n : Nat) : (s.moduleInt n).fwRunning = s.fwRunning := by rw [State.moduleInt_eq]
@[simp] theorem State.moduleInt_applied (n : Nat) : (s.moduleInt n).applied = s.applied := by rw [State.moduleInt_eq]
@[simp] theorem State.moduleInt_appliedImage (n : Nat) : (s.moduleInt n).appliedImage = s.appliedImage := by rw [State.moduleInt_eq]
@[simp] theorem State.moduleInt_seamRetrain (n : Nat) : (s.moduleInt n).seamRetrain = s.seamRetrain := by rw [State.moduleInt_eq]
@[simp] theorem State.moduleInt_tiles (n : Nat) : (s.moduleInt n).tiles = s.tiles := by rw [State.moduleInt_eq]
@[simp] theorem State.moduleInt_chans (n : Nat) : (s.moduleInt n).chans = s.chans := by rw [State.moduleInt_eq]
@[simp] theorem State.moduleInt_hbm (n : Nat) : (s.moduleInt n).hbm = s.hbm := by rw [State.moduleInt_eq]
@[simp] theorem State.moduleInt_tokens (n : Nat) : (s.moduleInt n).tokens = s.tokens := by rw [State.moduleInt_eq]
@[simp] theorem State.moduleInt_cxl (n : Nat) : (s.moduleInt n).cxl = s.cxl := by rw [State.moduleInt_eq]
@[simp] theorem State.moduleInt_arbs (n : Nat) : (s.moduleInt n).arbs = s.arbs := by rw [State.moduleInt_eq]
@[simp] theorem State.moduleInt_credits (n : Nat) : (s.moduleInt n).credits = s.credits := by rw [State.moduleInt_eq]
@[simp] theorem State.moduleInt_flows (n : Nat) : (s.moduleInt n).flows = s.flows := by rw [State.moduleInt_eq]
@[simp] theorem State.moduleInt_links (n : Nat) : (s.moduleInt n).links = s.links := by rw [State.moduleInt_eq]
@[simp] theorem State.moduleInt_arrived (n : Nat) : (s.moduleInt n).arrived = s.arrived := by rw [State.moduleInt_eq]
@[simp] theorem State.moduleInt_forward (n : Nat) : (s.moduleInt n).forward = s.forward := by rw [State.moduleInt_eq]
@[simp] theorem State.moduleInt_jobs (n : Nat) : (s.moduleInt n).jobs = s.jobs := by rw [State.moduleInt_eq]
@[simp] theorem State.moduleInt_aborts (n : Nat) : (s.moduleInt n).aborts = s.aborts := by rw [State.moduleInt_eq]
@[simp] theorem State.moduleInt_cmds (n : Nat) : (s.moduleInt n).cmds = s.cmds := by rw [State.moduleInt_eq]
@[simp] theorem State.moduleInt_nextCid (n : Nat) : (s.moduleInt n).nextCid = s.nextCid := by rw [State.moduleInt_eq]
@[simp] theorem State.moduleInt_queues (n : Nat) : (s.moduleInt n).queues = s.queues := by rw [State.moduleInt_eq]
@[simp] theorem State.moduleInt_versions (n : Nat) : (s.moduleInt n).versions = s.versions := by rw [State.moduleInt_eq]
@[simp] theorem State.moduleInt_glaunches (n : Nat) : (s.moduleInt n).glaunches = s.glaunches := by rw [State.moduleInt_eq]
@[simp] theorem State.moduleInt_graphNo (n : Nat) : (s.moduleInt n).graphNo = s.graphNo := by rw [State.moduleInt_eq]
@[simp] theorem State.moduleInt_mbox (n : Nat) : (s.moduleInt n).mbox = s.mbox := by rw [State.moduleInt_eq]
@[simp] theorem State.moduleInt_mboxRegs (n : Nat) : (s.moduleInt n).mboxRegs = s.mboxRegs := by rw [State.moduleInt_eq]
@[simp] theorem State.moduleInt_secure (n : Nat) : (s.moduleInt n).secure = s.secure := by rw [State.moduleInt_eq]
@[simp] theorem State.moduleInt_d2hHeld (n : Nat) : (s.moduleInt n).d2hHeld = s.d2hHeld := by rw [State.moduleInt_eq]
@[simp] theorem State.moduleInt_ppRun (n : Nat) : (s.moduleInt n).ppRun = s.ppRun := by rw [State.moduleInt_eq]
@[simp] theorem State.moduleInt_rcvErased (n : Nat) : (s.moduleInt n).rcvErased = s.rcvErased := by rw [State.moduleInt_eq]
@[simp] theorem State.moduleInt_ports (n : Nat) : (s.moduleInt n).ports = s.ports := by rw [State.moduleInt_eq]
@[simp] theorem State.moduleInt_msix (n : Nat) : (s.moduleInt n).msix = s.msix := by rw [State.moduleInt_eq]
@[simp] theorem State.moduleInt_read_reg (n : Nat) (k : Nat) : (s.moduleInt n).reg k = s.reg k := by
  simp only [State.reg, State.moduleInt_regs]
@[simp] theorem State.moduleInt_read_byte (n : Nat) (k : Nat) : (s.moduleInt n).byte k = s.byte k := by
  simp only [State.byte, State.moduleInt_mem]
@[simp] theorem State.moduleInt_read_bytes (n : Nat) (k m : Nat) : (s.moduleInt n).bytes k m = s.bytes k m := by
  simp only [State.bytes, State.byte, State.moduleInt_mem]
@[simp] theorem State.moduleInt_read_tile (n : Nat) (k : Nat) : (s.moduleInt n).tile k = s.tile k := by
  simp only [State.tile, State.moduleInt_tiles]
@[simp] theorem State.moduleInt_read_chan (n : Nat) (k : Nat) : (s.moduleInt n).chan k = s.chan k := by
  simp only [State.chan, State.moduleInt_chans]
@[simp] theorem State.moduleInt_read_stack (n : Nat) (k : Nat) : (s.moduleInt n).stack k = s.stack k := by
  simp only [State.stack, State.moduleInt_hbm]
@[simp] theorem State.moduleInt_read_flow (n : Nat) (k : Nat) : (s.moduleInt n).flow k = s.flow k := by
  simp only [State.flow, State.moduleInt_flows]
@[simp] theorem State.moduleInt_read_link (n : Nat) (k l : Nat) : (s.moduleInt n).link k l = s.link k l := by
  simp only [State.link, State.moduleInt_links]
@[simp] theorem State.moduleInt_read_queue (n : Nat) (k : Nat) : (s.moduleInt n).queue k = s.queue k := by
  simp only [State.queue, State.moduleInt_queues]
@[simp] theorem State.moduleInt_read_mail (n : Nat) (k l m : Nat) : (s.moduleInt n).mail k l m = s.mail k l m := by
  simp only [State.mail, State.moduleInt_mbox]
@[simp] theorem State.moduleInt_read_port (n : Nat) (k : Nat) : (s.moduleInt n).port k = s.port k := by
  simp only [State.port, State.moduleInt_ports]
@[simp] theorem State.moduleInt_read_cmd (n : Nat) (k : Nat) : (s.moduleInt n).cmd? k = s.cmd? k := by
  simp only [State.cmd?, State.moduleInt_cmds]
@[simp] theorem State.moduleInt_read_mboxReg (n : Nat) (k l : Nat) : (s.moduleInt n).mboxReg k l = s.mboxReg k l := by
  simp only [State.mboxReg, State.moduleInt_mboxRegs]
@[simp] theorem State.moduleInt_read_eccAt (n : Nat) (k : Nat) : (s.moduleInt n).eccAt k = s.eccAt k := by
  simp only [State.eccAt, State.moduleInt_ecc]

theorem State.queueInt_eq (q : Nat) :
    s.queueInt q = { s with out := (s.queueInt q).out, msixPend := (s.queueInt q).msixPend } := by
  unfold State.queueInt
  exact State.interrupt_eq _ _ _ _

@[simp] theorem State.queueInt_pending (q : Nat) : (s.queueInt q).pending = s.pending := by rw [State.queueInt_eq]
@[simp] theorem State.queueInt_free (q : Nat) : (s.queueInt q).free = s.free := by rw [State.queueInt_eq]
@[simp] theorem State.queueInt_regs (q : Nat) : (s.queueInt q).regs = s.regs := by rw [State.queueInt_eq]
@[simp] theorem State.queueInt_mem (q : Nat) : (s.queueInt q).mem = s.mem := by rw [State.queueInt_eq]
@[simp] theorem State.queueInt_ecc (q : Nat) : (s.queueInt q).ecc = s.ecc := by rw [State.queueInt_eq]
@[simp] theorem State.queueInt_mode (q : Nat) : (s.queueInt q).mode = s.mode := by rw [State.queueInt_eq]
@[simp] theorem State.queueInt_alwaysOn (q : Nat) : (s.queueInt q).alwaysOn = s.alwaysOn := by rw [State.queueInt_eq]
@[simp] theorem State.queueInt_resetDue (q : Nat) : (s.queueInt q).resetDue = s.resetDue := by rw [State.queueInt_eq]
@[simp] theorem State.queueInt_watchdog (q : Nat) : (s.queueInt q).watchdog = s.watchdog := by rw [State.queueInt_eq]
@[simp] theorem State.queueInt_power (q : Nat) : (s.queueInt q).power = s.power := by rw [State.queueInt_eq]
@[simp] theorem State.queueInt_flash (q : Nat) : (s.queueInt q).flash = s.flash := by rw [State.queueInt_eq]
@[simp] theorem State.queueInt_fwRunning (q : Nat) : (s.queueInt q).fwRunning = s.fwRunning := by rw [State.queueInt_eq]
@[simp] theorem State.queueInt_applied (q : Nat) : (s.queueInt q).applied = s.applied := by rw [State.queueInt_eq]
@[simp] theorem State.queueInt_appliedImage (q : Nat) : (s.queueInt q).appliedImage = s.appliedImage := by rw [State.queueInt_eq]
@[simp] theorem State.queueInt_seamRetrain (q : Nat) : (s.queueInt q).seamRetrain = s.seamRetrain := by rw [State.queueInt_eq]
@[simp] theorem State.queueInt_tiles (q : Nat) : (s.queueInt q).tiles = s.tiles := by rw [State.queueInt_eq]
@[simp] theorem State.queueInt_chans (q : Nat) : (s.queueInt q).chans = s.chans := by rw [State.queueInt_eq]
@[simp] theorem State.queueInt_hbm (q : Nat) : (s.queueInt q).hbm = s.hbm := by rw [State.queueInt_eq]
@[simp] theorem State.queueInt_tokens (q : Nat) : (s.queueInt q).tokens = s.tokens := by rw [State.queueInt_eq]
@[simp] theorem State.queueInt_cxl (q : Nat) : (s.queueInt q).cxl = s.cxl := by rw [State.queueInt_eq]
@[simp] theorem State.queueInt_arbs (q : Nat) : (s.queueInt q).arbs = s.arbs := by rw [State.queueInt_eq]
@[simp] theorem State.queueInt_credits (q : Nat) : (s.queueInt q).credits = s.credits := by rw [State.queueInt_eq]
@[simp] theorem State.queueInt_flows (q : Nat) : (s.queueInt q).flows = s.flows := by rw [State.queueInt_eq]
@[simp] theorem State.queueInt_links (q : Nat) : (s.queueInt q).links = s.links := by rw [State.queueInt_eq]
@[simp] theorem State.queueInt_arrived (q : Nat) : (s.queueInt q).arrived = s.arrived := by rw [State.queueInt_eq]
@[simp] theorem State.queueInt_forward (q : Nat) : (s.queueInt q).forward = s.forward := by rw [State.queueInt_eq]
@[simp] theorem State.queueInt_jobs (q : Nat) : (s.queueInt q).jobs = s.jobs := by rw [State.queueInt_eq]
@[simp] theorem State.queueInt_aborts (q : Nat) : (s.queueInt q).aborts = s.aborts := by rw [State.queueInt_eq]
@[simp] theorem State.queueInt_cmds (q : Nat) : (s.queueInt q).cmds = s.cmds := by rw [State.queueInt_eq]
@[simp] theorem State.queueInt_nextCid (q : Nat) : (s.queueInt q).nextCid = s.nextCid := by rw [State.queueInt_eq]
@[simp] theorem State.queueInt_queues (q : Nat) : (s.queueInt q).queues = s.queues := by rw [State.queueInt_eq]
@[simp] theorem State.queueInt_versions (q : Nat) : (s.queueInt q).versions = s.versions := by rw [State.queueInt_eq]
@[simp] theorem State.queueInt_glaunches (q : Nat) : (s.queueInt q).glaunches = s.glaunches := by rw [State.queueInt_eq]
@[simp] theorem State.queueInt_graphNo (q : Nat) : (s.queueInt q).graphNo = s.graphNo := by rw [State.queueInt_eq]
@[simp] theorem State.queueInt_mbox (q : Nat) : (s.queueInt q).mbox = s.mbox := by rw [State.queueInt_eq]
@[simp] theorem State.queueInt_mboxRegs (q : Nat) : (s.queueInt q).mboxRegs = s.mboxRegs := by rw [State.queueInt_eq]
@[simp] theorem State.queueInt_secure (q : Nat) : (s.queueInt q).secure = s.secure := by rw [State.queueInt_eq]
@[simp] theorem State.queueInt_d2hHeld (q : Nat) : (s.queueInt q).d2hHeld = s.d2hHeld := by rw [State.queueInt_eq]
@[simp] theorem State.queueInt_ppRun (q : Nat) : (s.queueInt q).ppRun = s.ppRun := by rw [State.queueInt_eq]
@[simp] theorem State.queueInt_rcvErased (q : Nat) : (s.queueInt q).rcvErased = s.rcvErased := by rw [State.queueInt_eq]
@[simp] theorem State.queueInt_ports (q : Nat) : (s.queueInt q).ports = s.ports := by rw [State.queueInt_eq]
@[simp] theorem State.queueInt_msix (q : Nat) : (s.queueInt q).msix = s.msix := by rw [State.queueInt_eq]
@[simp] theorem State.queueInt_read_reg (q : Nat) (k : Nat) : (s.queueInt q).reg k = s.reg k := by
  simp only [State.reg, State.queueInt_regs]
@[simp] theorem State.queueInt_read_byte (q : Nat) (k : Nat) : (s.queueInt q).byte k = s.byte k := by
  simp only [State.byte, State.queueInt_mem]
@[simp] theorem State.queueInt_read_bytes (q : Nat) (k m : Nat) : (s.queueInt q).bytes k m = s.bytes k m := by
  simp only [State.bytes, State.byte, State.queueInt_mem]
@[simp] theorem State.queueInt_read_tile (q : Nat) (k : Nat) : (s.queueInt q).tile k = s.tile k := by
  simp only [State.tile, State.queueInt_tiles]
@[simp] theorem State.queueInt_read_chan (q : Nat) (k : Nat) : (s.queueInt q).chan k = s.chan k := by
  simp only [State.chan, State.queueInt_chans]
@[simp] theorem State.queueInt_read_stack (q : Nat) (k : Nat) : (s.queueInt q).stack k = s.stack k := by
  simp only [State.stack, State.queueInt_hbm]
@[simp] theorem State.queueInt_read_flow (q : Nat) (k : Nat) : (s.queueInt q).flow k = s.flow k := by
  simp only [State.flow, State.queueInt_flows]
@[simp] theorem State.queueInt_read_link (q : Nat) (k l : Nat) : (s.queueInt q).link k l = s.link k l := by
  simp only [State.link, State.queueInt_links]
@[simp] theorem State.queueInt_read_queue (q : Nat) (k : Nat) : (s.queueInt q).queue k = s.queue k := by
  simp only [State.queue, State.queueInt_queues]
@[simp] theorem State.queueInt_read_mail (q : Nat) (k l m : Nat) : (s.queueInt q).mail k l m = s.mail k l m := by
  simp only [State.mail, State.queueInt_mbox]
@[simp] theorem State.queueInt_read_port (q : Nat) (k : Nat) : (s.queueInt q).port k = s.port k := by
  simp only [State.port, State.queueInt_ports]
@[simp] theorem State.queueInt_read_cmd (q : Nat) (k : Nat) : (s.queueInt q).cmd? k = s.cmd? k := by
  simp only [State.cmd?, State.queueInt_cmds]
@[simp] theorem State.queueInt_read_mboxReg (q : Nat) (k l : Nat) : (s.queueInt q).mboxReg k l = s.mboxReg k l := by
  simp only [State.mboxReg, State.queueInt_mboxRegs]
@[simp] theorem State.queueInt_read_eccAt (q : Nat) (k : Nat) : (s.queueInt q).eccAt k = s.eccAt k := by
  simp only [State.eccAt, State.queueInt_ecc]

theorem State.mboxInt_eq (p : Nat) :
    s.mboxInt p = { s with out := (s.mboxInt p).out, msixPend := (s.mboxInt p).msixPend } := by
  unfold State.mboxInt
  exact State.interrupt_eq _ _ _ _

@[simp] theorem State.mboxInt_pending (p : Nat) : (s.mboxInt p).pending = s.pending := by rw [State.mboxInt_eq]
@[simp] theorem State.mboxInt_free (p : Nat) : (s.mboxInt p).free = s.free := by rw [State.mboxInt_eq]
@[simp] theorem State.mboxInt_regs (p : Nat) : (s.mboxInt p).regs = s.regs := by rw [State.mboxInt_eq]
@[simp] theorem State.mboxInt_mem (p : Nat) : (s.mboxInt p).mem = s.mem := by rw [State.mboxInt_eq]
@[simp] theorem State.mboxInt_ecc (p : Nat) : (s.mboxInt p).ecc = s.ecc := by rw [State.mboxInt_eq]
@[simp] theorem State.mboxInt_mode (p : Nat) : (s.mboxInt p).mode = s.mode := by rw [State.mboxInt_eq]
@[simp] theorem State.mboxInt_alwaysOn (p : Nat) : (s.mboxInt p).alwaysOn = s.alwaysOn := by rw [State.mboxInt_eq]
@[simp] theorem State.mboxInt_resetDue (p : Nat) : (s.mboxInt p).resetDue = s.resetDue := by rw [State.mboxInt_eq]
@[simp] theorem State.mboxInt_watchdog (p : Nat) : (s.mboxInt p).watchdog = s.watchdog := by rw [State.mboxInt_eq]
@[simp] theorem State.mboxInt_power (p : Nat) : (s.mboxInt p).power = s.power := by rw [State.mboxInt_eq]
@[simp] theorem State.mboxInt_flash (p : Nat) : (s.mboxInt p).flash = s.flash := by rw [State.mboxInt_eq]
@[simp] theorem State.mboxInt_fwRunning (p : Nat) : (s.mboxInt p).fwRunning = s.fwRunning := by rw [State.mboxInt_eq]
@[simp] theorem State.mboxInt_applied (p : Nat) : (s.mboxInt p).applied = s.applied := by rw [State.mboxInt_eq]
@[simp] theorem State.mboxInt_appliedImage (p : Nat) : (s.mboxInt p).appliedImage = s.appliedImage := by rw [State.mboxInt_eq]
@[simp] theorem State.mboxInt_seamRetrain (p : Nat) : (s.mboxInt p).seamRetrain = s.seamRetrain := by rw [State.mboxInt_eq]
@[simp] theorem State.mboxInt_tiles (p : Nat) : (s.mboxInt p).tiles = s.tiles := by rw [State.mboxInt_eq]
@[simp] theorem State.mboxInt_chans (p : Nat) : (s.mboxInt p).chans = s.chans := by rw [State.mboxInt_eq]
@[simp] theorem State.mboxInt_hbm (p : Nat) : (s.mboxInt p).hbm = s.hbm := by rw [State.mboxInt_eq]
@[simp] theorem State.mboxInt_tokens (p : Nat) : (s.mboxInt p).tokens = s.tokens := by rw [State.mboxInt_eq]
@[simp] theorem State.mboxInt_cxl (p : Nat) : (s.mboxInt p).cxl = s.cxl := by rw [State.mboxInt_eq]
@[simp] theorem State.mboxInt_arbs (p : Nat) : (s.mboxInt p).arbs = s.arbs := by rw [State.mboxInt_eq]
@[simp] theorem State.mboxInt_credits (p : Nat) : (s.mboxInt p).credits = s.credits := by rw [State.mboxInt_eq]
@[simp] theorem State.mboxInt_flows (p : Nat) : (s.mboxInt p).flows = s.flows := by rw [State.mboxInt_eq]
@[simp] theorem State.mboxInt_links (p : Nat) : (s.mboxInt p).links = s.links := by rw [State.mboxInt_eq]
@[simp] theorem State.mboxInt_arrived (p : Nat) : (s.mboxInt p).arrived = s.arrived := by rw [State.mboxInt_eq]
@[simp] theorem State.mboxInt_forward (p : Nat) : (s.mboxInt p).forward = s.forward := by rw [State.mboxInt_eq]
@[simp] theorem State.mboxInt_jobs (p : Nat) : (s.mboxInt p).jobs = s.jobs := by rw [State.mboxInt_eq]
@[simp] theorem State.mboxInt_aborts (p : Nat) : (s.mboxInt p).aborts = s.aborts := by rw [State.mboxInt_eq]
@[simp] theorem State.mboxInt_cmds (p : Nat) : (s.mboxInt p).cmds = s.cmds := by rw [State.mboxInt_eq]
@[simp] theorem State.mboxInt_nextCid (p : Nat) : (s.mboxInt p).nextCid = s.nextCid := by rw [State.mboxInt_eq]
@[simp] theorem State.mboxInt_queues (p : Nat) : (s.mboxInt p).queues = s.queues := by rw [State.mboxInt_eq]
@[simp] theorem State.mboxInt_versions (p : Nat) : (s.mboxInt p).versions = s.versions := by rw [State.mboxInt_eq]
@[simp] theorem State.mboxInt_glaunches (p : Nat) : (s.mboxInt p).glaunches = s.glaunches := by rw [State.mboxInt_eq]
@[simp] theorem State.mboxInt_graphNo (p : Nat) : (s.mboxInt p).graphNo = s.graphNo := by rw [State.mboxInt_eq]
@[simp] theorem State.mboxInt_mbox (p : Nat) : (s.mboxInt p).mbox = s.mbox := by rw [State.mboxInt_eq]
@[simp] theorem State.mboxInt_mboxRegs (p : Nat) : (s.mboxInt p).mboxRegs = s.mboxRegs := by rw [State.mboxInt_eq]
@[simp] theorem State.mboxInt_secure (p : Nat) : (s.mboxInt p).secure = s.secure := by rw [State.mboxInt_eq]
@[simp] theorem State.mboxInt_d2hHeld (p : Nat) : (s.mboxInt p).d2hHeld = s.d2hHeld := by rw [State.mboxInt_eq]
@[simp] theorem State.mboxInt_ppRun (p : Nat) : (s.mboxInt p).ppRun = s.ppRun := by rw [State.mboxInt_eq]
@[simp] theorem State.mboxInt_rcvErased (p : Nat) : (s.mboxInt p).rcvErased = s.rcvErased := by rw [State.mboxInt_eq]
@[simp] theorem State.mboxInt_ports (p : Nat) : (s.mboxInt p).ports = s.ports := by rw [State.mboxInt_eq]
@[simp] theorem State.mboxInt_msix (p : Nat) : (s.mboxInt p).msix = s.msix := by rw [State.mboxInt_eq]
@[simp] theorem State.mboxInt_read_reg (p : Nat) (k : Nat) : (s.mboxInt p).reg k = s.reg k := by
  simp only [State.reg, State.mboxInt_regs]
@[simp] theorem State.mboxInt_read_byte (p : Nat) (k : Nat) : (s.mboxInt p).byte k = s.byte k := by
  simp only [State.byte, State.mboxInt_mem]
@[simp] theorem State.mboxInt_read_bytes (p : Nat) (k m : Nat) : (s.mboxInt p).bytes k m = s.bytes k m := by
  simp only [State.bytes, State.byte, State.mboxInt_mem]
@[simp] theorem State.mboxInt_read_tile (p : Nat) (k : Nat) : (s.mboxInt p).tile k = s.tile k := by
  simp only [State.tile, State.mboxInt_tiles]
@[simp] theorem State.mboxInt_read_chan (p : Nat) (k : Nat) : (s.mboxInt p).chan k = s.chan k := by
  simp only [State.chan, State.mboxInt_chans]
@[simp] theorem State.mboxInt_read_stack (p : Nat) (k : Nat) : (s.mboxInt p).stack k = s.stack k := by
  simp only [State.stack, State.mboxInt_hbm]
@[simp] theorem State.mboxInt_read_flow (p : Nat) (k : Nat) : (s.mboxInt p).flow k = s.flow k := by
  simp only [State.flow, State.mboxInt_flows]
@[simp] theorem State.mboxInt_read_link (p : Nat) (k l : Nat) : (s.mboxInt p).link k l = s.link k l := by
  simp only [State.link, State.mboxInt_links]
@[simp] theorem State.mboxInt_read_queue (p : Nat) (k : Nat) : (s.mboxInt p).queue k = s.queue k := by
  simp only [State.queue, State.mboxInt_queues]
@[simp] theorem State.mboxInt_read_mail (p : Nat) (k l m : Nat) : (s.mboxInt p).mail k l m = s.mail k l m := by
  simp only [State.mail, State.mboxInt_mbox]
@[simp] theorem State.mboxInt_read_port (p : Nat) (k : Nat) : (s.mboxInt p).port k = s.port k := by
  simp only [State.port, State.mboxInt_ports]
@[simp] theorem State.mboxInt_read_cmd (p : Nat) (k : Nat) : (s.mboxInt p).cmd? k = s.cmd? k := by
  simp only [State.cmd?, State.mboxInt_cmds]
@[simp] theorem State.mboxInt_read_mboxReg (p : Nat) (k l : Nat) : (s.mboxInt p).mboxReg k l = s.mboxReg k l := by
  simp only [State.mboxReg, State.mboxInt_mboxRegs]
@[simp] theorem State.mboxInt_read_eccAt (p : Nat) (k : Nat) : (s.mboxInt p).eccAt k = s.eccAt k := by
  simp only [State.eccAt, State.mboxInt_ecc]


end Sys2Proof.Machine
end

