-- ==== Sys2Proof/Laws/Frame.lean ====
section
/-! SUPPORT. Frames: writes of listed registers change nothing else, step by step. -/
namespace Sys2Proof.Machine

variable {L : List Nat} {s t : State}

theorem onlyRegs.refl (L : List Nat) (s : State) : onlyRegs L s s := ⟨rfl, fun _ _ => rfl⟩

theorem onlyRegs.setReg (h : onlyRegs L s t) {o : Nat} (v : Word) (ho : o ∈ L) : onlyRegs L s (t.setReg o v) := by
  refine ⟨?_, fun k hk => ?_⟩
  · rw [h.1]; rfl
  · rw [State.reg_setReg_ne _ _ _ _ (by rintro rfl; exact hk ho)]
    exact h.2 k hk

theorem onlyRegs.putReg (h : onlyRegs L s t) {o : Nat} (hi lo v : Nat) (ho : o ∈ L) :
    onlyRegs L s (t.putReg o hi lo v) := h.setReg _ ho

theorem onlyRegs.putBit (h : onlyRegs L s t) {o : Nat} (n : Nat) (b : Bool) (ho : o ∈ L) :
    onlyRegs L s (t.putBit o n b) := h.setReg _ ho

theorem onlyRegs.count (h : onlyRegs L s t) {o : Nat} (n : Nat) (ho : o ∈ L) : onlyRegs L s (t.count o n) :=
  h.setReg _ ho

theorem onlyRegs.count64 (h : onlyRegs L s t) {o : Nat} (n : Nat) (ho : o ∈ L) : onlyRegs L s (t.count64 o n) :=
  h.setReg _ ho

theorem regsBut.refl (L : List Nat) (s : State) : regsBut L s s := fun _ _ => rfl

theorem regsBut.setReg (h : regsBut L s t) {o : Nat} (v : Word) (ho : o ∈ L) : regsBut L s (t.setReg o v) := by
  intro k hk
  rw [State.reg_setReg_ne _ _ _ _ (by rintro rfl; exact hk ho)]
  exact h k hk

theorem regsBut.trans {u : State} (h : regsBut L s t) (h' : regsBut L t u) : regsBut L s u := fun k hk =>
  (h' k hk).trans (h k hk)

theorem memSame.trans {u : State} (h : memSame s t) (h' : memSame t u) : memSame s u := fun k =>
  (h' k).trans (h k)

theorem memSame.of_mem (h : t.mem = s.mem) : memSame s t := fun k => by simp only [State.byte, h]

/-- A saturating 32-bit event counter after n events (R9). -/
theorem State.reg_count (s : State) (o n k : Nat) : (s.count o n).reg k =
    if k = o then BitVec.ofNat 64 (min ((s.reg o).toNat + n) 0xFFFFFFFF) else s.reg k := State.reg_setReg _ _ _ _

/-- A saturating 64-bit event counter after n events (R9). -/
theorem State.reg_count64 (s : State) (o n k : Nat) : (s.count64 o n).reg k =
    if k = o then BitVec.ofNat 64 (min ((s.reg o).toNat + n) 0xFFFFFFFFFFFFFFFF) else s.reg k :=
  State.reg_setReg _ _ _ _

theorem State.reg_putReg (s : State) (o hi lo v k : Nat) : (s.putReg o hi lo v).reg k =
    if k = o then putField (s.reg o) hi lo v else s.reg k := State.reg_setReg _ _ _ _

theorem State.reg_putBit (s : State) (o n : Nat) (b : Bool) (k : Nat) : (s.putBit o n b).reg k =
    if k = o then putFlag (s.reg o) n b else s.reg k := State.reg_setReg _ _ _ _

end Sys2Proof.Machine
end

