-- ==== Sys2Proof/Laws/Stylus.lean ====
section
/-! SUPPORT. What a slot of an open bundle does when it is the last to act (R164, R168, R169): one lemma per kind of
slot. -/
namespace Sys2Proof.Machine

theorem Tile.cur_setBank (x : Tile) (b : Bank) : (x.setBank x.active b).cur = b := by
  unfold Tile.setBank Tile.cur Tile.bank
  cases h : x.active <;> simp

theorem Tile.setBank_setBank (x : Tile) (a : Bool) (b c : Bank) : (x.setBank a b).setBank a c = x.setBank a c := by
  cases a <;> rfl

/-- The last slot of an open issue acts on the state whose issue has no slot left, and the issue closes. -/
theorem slotRow_last {s : State} {t slot opc : Nat} {p : Bool} {act : Issue → Word → State → State} {i : Issue}
    (h : lastSlot s t slot i) (ho : slotOpc (slotOf i.words slot) = opc) :
    s.slotRow t slot opc p act =
      (act i (slotOf i.words slot)
        (s.setTile t { s.tile t with issue := some { i with todo := [] } })).closeIssue t := by
  obtain ⟨h1, h2, h3, h4, h5⟩ := h
  unfold State.slotRow
  have e : s.nextWords t = i.words := by simp [State.nextWords, h1]
  rw [e, if_neg (by simp [ho])]
  have e2 : s.openIssue t p = s := by simp [State.openIssue, h1]
  have e3 : i.todo.filter (· != slot) = [] := by simp [h2]
  simp only [e2, h1]
  rw [if_pos (by simp [h2])]
  unfold State.slotAct
  rw [e3]

/-- An issue whose slots have all acted closes: its marks, its PC, END and REP (R168, R169, R204). -/
theorem closeIssue_done {s : State} {t : Nat} {i : Issue} (h1 : (s.tile t).issue = some i) (h2 : i.todo = [])
    (h3 : i.left = 0) (h4 : i.marks = []) (h5 : i.ending = false) :
    s.closeIssue t = closedWith s t (s.tile t).cur i.nextPc := by
  unfold State.closeIssue closedWith closedTile
  simp only [h1]
  rw [if_neg (by simp [h2])]
  simp [h3, h4, h5, Bank.increment]

/-- A slot that changes only the active bank: what stays is that bank at the issue's next PC. -/
theorem slotRow_onCur {s : State} {t slot opc : Nat} {p : Bool} {f : Issue → Word → Bank → Bank} {i : Issue}
    (h : lastSlot s t slot i) (ho : slotOpc (slotOf i.words slot) = opc) :
    s.slotRow t slot opc p (fun i w s => s.onCur t (f i w)) =
      closedWith s t (f i (slotOf i.words slot) (s.tile t).cur) i.nextPc := by
  rw [slotRow_last h ho]
  obtain ⟨-, -, h3, h4, h5⟩ := h
  rw [closeIssue_done (i := { i with todo := [] }) ?_ rfl h3 h4 h5]
  · simp only [closedWith, State.onCur, State.tile_setTile_same, State.setTile_setTile]
    generalize s.tile t = x
    unfold closedTile
    cases ha : x.active <;> simp [Tile.setBank, Tile.cur, Tile.bank, ha]
  · simp only [State.onCur, State.tile_setTile_same]
    generalize s.tile t = x
    cases ha : x.active <;> simp [Tile.setBank, Tile.cur, Tile.bank]

/-- A slot that changes only the open issue. -/
theorem slotRow_onIssue {s : State} {t slot opc : Nat} {p : Bool} {f : Issue → Word → Issue → Issue} {i : Issue}
    (h : lastSlot s t slot i) (ho : slotOpc (slotOf i.words slot) = opc) :
    s.slotRow t slot opc p (fun i w s => s.onIssue t (f i w)) =
      (s.setTile t { s.tile t with
        issue := some (f i (slotOf i.words slot) { i with todo := [] }) }).closeIssue t := by
  rw [slotRow_last h ho]
  simp only [State.onIssue, State.tile_setTile_same, State.setTile_setTile, Option.map_some]

end Sys2Proof.Machine
end

