-- ==== Sys2Proof/Tests/Slice0.lean ====
section
/-! SUPPORT. Small tests: ill-formed commands that are refused, and for the statements' hypotheses concrete states and
operands that meet them, clause by clause. -/
namespace Sys2Proof.Machine

/-! ### Small states -/

/-- The module in service, with host port 0 released: the state most witnesses start from. -/
def up : State :=
  { State.reset with mode := .running, alwaysOn := true, ports := [(0, ⟨false, true, true, 0xFFFFFFFF, 0, 0, 0, 0, none⟩)] }

/-- The path of port 0's PF. -/
def pf : Path := .bar0 0 0

/-- The module in service with tile 0 as given. -/
def inTile (x : Tile) : State := up.setTile 0 x

/-- Every address of near memory lies in one of the eight stacks. -/
theorem stackOf_lt (s : State) (a : Nat) : s.stackOf a < 8 := by
  have three : ∀ g hi lo, hi + 1 - lo = 3 → bitsN g hi lo < 2 ^ 3 := fun g hi lo e => by
    unfold bitsN; rw [e]; exact Nat.mod_lt _ (by decide)
  have two : ∀ g hi lo, hi + 1 - lo = 2 → bitsN g hi lo < 2 ^ 2 := fun g hi lo e => by
    unfold bitsN; rw [e]; exact Nat.mod_lt _ (by decide)
  unfold State.stackOf
  split
  · have h1 := Nat.xor_lt_two_pow (Nat.xor_lt_two_pow (two (a / 4096) 1 0 rfl) (two (a / 4096) 9 8 rfl))
      (two (a / 4096) 17 16 rfl)
    have h2 : bitsN a 38 38 < 2 := by unfold bitsN; exact Nat.mod_lt _ (by decide)
    simp only at h1 ⊢
    omega
  · exact Nat.xor_lt_two_pow (Nat.xor_lt_two_pow (three (a / 4096) 2 0 rfl) (three (a / 4096) 10 8 rfl))
      (three (a / 4096) 18 16 rfl)

/-- Near memory answers every die while no die is lost, no clock is lost and no seam is fenced. -/
theorem near_ok (s : State) (d a : Nat) (hd : d < 4) (ha : a < 0x8000000000)
    (h : ((List.range 4).all fun d => (List.range 2).all fun c => !s.pathLost d c && !s.pathDown d c) = true)
    (hc : s.contained = false) (hl : ((List.range 8).all fun k => !s.domainLostAt (4 + k)) = true) :
    s.reach d a = .ok := by
  have hs := stackOf_lt s a
  have hr : s.region a = .near (s.stackOf a) := by simp [State.region, ha]
  simp only [List.all_eq_true, List.mem_range, Bool.and_eq_true, Bool.not_eq_true'] at h hl
  have hp := h d hd (s.stackOf a / 4) (by omega)
  simp only [State.reach, hr, Region.die, hp.1, hp.2, hc, hl _ hs]
  rfl

/-! ### Commands that are not well formed (log 3) -/

/-- A packet of a type with a payload, on its final hop. -/
def pkt (ptype : Nat) (payload : List Byte) : Packet :=
  { wellFormed := true, ptype := ptype, elided := false, fetch := false, retx := false, nhops := 0, rptr := 0, route := 0
    dstFlow := 0, srcFlow := 0, psn := 0, raddr := 0, len := payload.length, afmt := 0, status := 0, reason := 0, ref := 0
    elideMask := 0, cumPsn := 0, sack := 0, payload := payload }

/-- A start in which nothing fails. -/
def goodStart : StartInputs :=
  { fuseFail := none, fwGood := true, sketchGood := true, pllFail := none, laneFails := [], hbmLanes := []
    cxlLink := List.replicate 4 (8, 2, true), cxlTargets := List.replicate 4 []
    clockLost := none, trip := none, optics := List.replicate 32 ⟨0, 0, 0⟩, millis := 5 }

theorem test_wf_hbm : exec (.hbmSectorAccess 60 (.write [1, 2, 3, 4, 5]) .clean) up = .fault .illFormed := rfl
theorem test_wf_cxl : exec (.cxlCompletion 0 0 false [1]) up = .fault .illFormed := rfl
theorem test_wf_credit : exec (.creditReturn .cd0 7 .req 1) up = .fault .illFormed := rfl
theorem test_wf_arbiter : exec (.arbiterGrant .cd0 .netCrossbar 0 0 false false) up = .fault .illFormed := rfl
theorem test_wf_native : exec (.nativeFrameReceive 0 0 (List.replicate 65 0)) up = .fault .illFormed := rfl
theorem test_wf_ether : exec (.ethernetFrameReceive 0 0 (List.replicate 63 0)) up = .fault .illFormed := rfl
theorem test_wf_imem : exec (.imemHostWrite pf 0x2000000 []) up = .fault .illFormed := rfl
theorem test_wf_bar2_read : exec (.bar2Read 0 0 4097) up = .fault .illFormed := rfl
theorem test_wf_bar2_write : exec (.bar2Write 0 0 [] false) up = .fault .illFormed := rfl
theorem test_wf_cold_start : exec (.coldStart { goodStart with cxlLink := [] }) up = .fault .illFormed := rfl
theorem test_wf_full_reset : exec (.fullReset { goodStart with cxlTargets := [] }) up = .fault .illFormed := rfl

/-! ### The queue, reset, power, clocks and seams (O1 to O12) -/

theorem test_queue_front : ∃ s c rest, State.pending s = c :: rest :=
  ⟨{ up with pending := [.governorStep] }, _, _, rfl⟩
theorem test_queue_untouched : ∃ t, exec (.seamReplay 0 false) up = .next t := ⟨_, rfl⟩
theorem test_canonical : up.canonical = true ∧ ∃ t, step { up with pending := [.governorStep] } = .next t :=
  ⟨by decide, _, rfl⟩
theorem test_idle : State.reset.pending = [] := rfl
theorem test_ill_formed : (Instr.bar2Read 0 0 0).wf = false := rfl
theorem test_well_formed : (Instr.bar2Read 0 0 4096).wf = true := by decide
theorem test_power_trip : up.powered = true := rfl
theorem test_sample : up.powered = true ∧ up.power.hot.length = 4 ∧ 1100 ≤ up.power.cap + 100 ∧
    (∀ y ∈ [94, 0, 0, 0], y < 95) ∧ up.power.cap + 100 < 1101 := by decide
/-- Ten samples that cut at the boundary R36 names, no die hot. -/
def tenSamples (w : Nat) : State := { up with power := { Power.reset with samples := List.replicate 10 w } }
theorem hot_reset (d : Nat) : State.hotDie { up with power := Power.reset } d = false := by
  unfold State.hotDie
  rcases d with _ | _ | _ | _ | d <;> rfl
theorem test_governor_step : (tenSamples 976).powered = true ∧ (tenSamples 976).power.samples.length = 10 ∧
    (∀ d, (tenSamples 976).hotDie d = false) ∧ 10 * (1000 - 25) < (tenSamples 976).power.samples.sum ∧
    (tenSamples 975).powered = true ∧ (∀ d, (tenSamples 975).hotDie d = false) ∧
    ¬ 10 * (1000 - 25) < (tenSamples 975).power.samples.sum :=
  ⟨by decide, by decide, hot_reset, by decide, by decide, hot_reset, by decide⟩
/-- A restore that is due, under COMPUTE, with both compute dies cut. -/
def restoring : State :=
  ({ up with power := { Power.reset with restoreDue := true, order := [1, 2, 0] } }).setReg 0x1000C 0x11
theorem test_restore : restoring.power.restoreDue = true ∧ restoring.power.order = [1, 2, 0] ∧
    (∀ d, restoring.hotDie d = false) ∧ 0 < restoring.level 0 0 ∧ 0 < restoring.level 0 1 :=
  ⟨by decide, by decide, hot_reset, by decide, by decide⟩
theorem test_kernel_path : (up.kernelPath pf).isSome = true ∧ up.split = false ∧ up.kernelPath (.bar0 1 0) = none ∧
    up.kernelPath (.bar0 0 1) = none := by decide
theorem test_clock_loss : flag ((up.setReg 0x20000 0x10).reg 0x20000) (4 : Fin 25) = true ∧
    flag (up.reg 0x20000) (4 : Fin 25) = false ∧ flag ((up.setReg 0x20000 0x800).reg 0x20000) (11 : Fin 25) = true := by
  decide
theorem test_seam_replay : flag ((up.setReg 0x30030 1).reg (0x30000 + (3 : Fin 4).val * 0x10)) 0 = true := by decide

/-! ### The tile processor (O13 to O16) -/

/-- An issue whose one slot left is the one given, with the word given. -/
def issueOf (slot : Nat) (w : Word) : Issue :=
  { words := List.replicate slot 0 ++ [w], plates := [], left := 0, view := ⟨[(1, 2)], [], [], [(0, 2)], []⟩,
    todo := [slot], queued := [slot], seqBase := 0, marks := [], ending := false, nextPc := 1 }
/-- Tile 0 whose bank 0 issues it. -/
def issuing (slot : Nat) (w : Word) : Tile :=
  { Tile.reset with bank0 := { Bank.reset with phase := .issuing, pinLen := 1 }, issue := some (issueOf slot w) }
/-- The word of an opcode, its other bits 0. -/
def opw (op : Nat) : Word := BitVec.ofNat 64 op <<< 52

theorem lastSlot_issuing (slot : Nat) (w : Word) : lastSlot (inTile (issuing slot w)) 0 slot (issueOf slot w) :=
  ⟨rfl, rfl, rfl, rfl, rfl⟩
theorem test_bundle_nop :
    let s := inTile { Tile.reset with bank0 := { Bank.reset with phase := .issuing, pinLen := 1 } }
    s.tileOn 0 = true ∧ (s.tile 0).issue = none ∧ (s.tile 0).rep = none ∧ (s.tile 0).scalar = none ∧
      (s.tile 0).cur.phase = .issuing ∧ (s.tile 0).cur.pins (s.tile 0).cur.pc.toNat = true ∧
      s.eccAt (0xF80002000000 + 0 * 0x10000 + 64 * (s.tile 0).cur.pc.toNat) = .clean ∧
      s.bytes (0xF80002000000 + 0 * 0x10000 + 64 * (s.tile 0).cur.pc.toNat) 64 = List.replicate 64 0 := by decide
/-- Counts at the boundaries of LOOP.SET and REP (0, 1, 2), and of LOOP.END (c0 holds 2, c1 holds 0). -/
theorem test_control : (∀ op ∈ [1, 2, 3, 4, 5, 6, 7], slotOpc (slotOf (issueOf 0 (opw op)).words 0) = op) ∧
    field (opw 3) 31 0 = 0 ∧ field (opw 3 + 1) 31 0 ≠ 0 ∧ field (opw 5 + 1) 31 0 = 1 ∧ 2 ≤ field (opw 5 + 2) 31 0 ∧
    1 < ((issueOf 0 (opw 4)).view.creg (field (opw 4) 51 49)).toNat ∧
    ((issueOf 0 (opw 4 + 0x2000000000000)).view.creg (field (opw 4 + 0x2000000000000) 51 49)).toNat ≤ 1 ∧
    ((inTile (issuing 0 (opw 1))).tile 0).cur.phase = .issuing := by decide
theorem test_scalar : ∀ op ∈ [0x10, 0x11, 0x12, 0x13, 0x14, 0x15, 0x16, 0x17, 0x18, 0x19, 0x1A, 0x1B, 0x1C, 0x1D, 0x1E,
    0x20, 0x21, 0x22, 0x23], slotOpc (slotOf (issueOf 1 (opw op)).words 1) = op := by decide
theorem test_address : ∀ op ∈ [0x20, 0x21, 0x22, 0x23, 0x24, 0x25],
    slotOpc (slotOf (issueOf 2 (opw op)).words 2) = op ∧ slotOpc (slotOf (issueOf 3 (opw op)).words 3) = op := by decide
theorem test_queued :
    (∀ slot ∈ [4, 5, 6, 7], ((inTile (issuing slot 0)).tile 0).cur.faulted = false ∧
      ((inTile (issuing slot 0)).tile 0).cur.aborted = false) ∧
    (∀ op ∈ [0x80, 0x88, 0x89], slotOpc (slotOf (issueOf 4 (opw op)).words 4) = op) ∧
    (∀ op ∈ [0x80, 0x88, 0x89, 0x81, 0x82], slotOpc (slotOf (issueOf 5 (opw op)).words 5) = op) ∧
    (∀ op ∈ [0x40, 0x41, 0x42, 0x43, 0x44, 0x45, 0x46, 0x47, 0x48, 0x50, 0x51, 0x52, 0x58],
      slotOpc (slotOf (issueOf 6 (opw op)).words 6) = op) ∧
    (∀ op ∈ [0x30, 0x68, 0x69, 0xC0], slotOpc (slotOf (issueOf 7 (opw op)).words 7) = op) := by decide
/-- An aligned load of eight bytes that ends with the scratchpad, one that crosses its end, and one misaligned. -/
theorem test_direct : (∀ op ∈ [0x60, 0x61, 0x20, 0x21], slotOpc (slotOf (issueOf 7 (opw op)).words 7) = op) ∧
    (let off := fun (w : Word) => (((issueOf 7 w).view.areg (field w 44 40)).toNat + field w 23 0) % 2 ^ 24
     let size := fun (w : Word) => 2 ^ field w 51 50
     let last := opw 0x20 + 0xC0000005FFFF8
     off last + size last = 0x600000 ∧ off last % size last = 0 ∧
       off (opw 0x20 + 0xC000000600000) + size (opw 0x20 + 0xC000000600000) = 0x600008 ∧
       off (opw 0x21 + 0x4000000000001) % size (opw 0x21 + 0x4000000000001) ≠ 0) ∧
    ((inTile (issuing 7 (opw 0x20))).tile 0).cur.phase = .issuing ∧
    ((inTile (issuing 7 (opw 0x20))).tile 0).cur.faulted = false := by decide
theorem test_scalar_grant : ∀ load ∈ [true, false], ((inTile { Tile.reset with
    scalar := some ⟨false, load, 0x5FFFF8, 8, 31, 1, 0⟩ }).tile 0).scalar = some ⟨false, load, 0x5FFFF8, 8, 31, 1, 0⟩ ∧
    (inTile Tile.reset).ecc = [] := by decide
/-- A queue DM whose head does w, waiting for event 0 to reach 1 or not. -/
def dmHead (w : Work) (wait : Bool) : State :=
  inTile { Tile.reset with dm := [⟨0, 9, 0, ⟨false, 0, wait, 0, 1⟩, w⟩] }
theorem alive_up (d : Nat) : up.dieLost d = false := by
  have h : up.reg 0x4C = 0 := by decide
  unfold State.dieLost State.dieState
  simp [h, field, bitsN]
theorem test_dm_head : (dmHead (.signal 65535 1) false).tileOn 0 = true ∧ (dmHead (.cset 0 1) false).split = false ∧
    (∀ d, (dmHead (.cset 0 1) false).dieLost d = false) ∧
    ((dmHead (.cset 0 1) false).tile 0).bankOf 9 = none ∧
    (∀ w ∈ [Work.signal 65535 1, .cset 0 1, .waitge 1 0, .waitge 1 1], (dmHead w false).waitMet 0
      ⟨0, 9, 0, ⟨false, 0, false, 0, 1⟩, w⟩ = true ∧ (dmHead w true).waitMet 0 ⟨0, 9, 0, ⟨false, 0, true, 0, 1⟩, w⟩ =
      false) ∧
    (∀ i, i < 4 → flag ((dmHead (.cset 0 1) false).reg (0x30000 + 0x10 * i)) 1 = false) ∧
    ((dmHead (.waitge 1 0) false).ctr 1).toNat = 0 ∧
    (QCmd.range ⟨0, 9, 0, ⟨false, 0, true, 0, 1⟩, .cset 0 1⟩) = none :=
  ⟨by decide, by decide, alive_up, by decide, by decide, by decide, by decide, by decide⟩

/-! ### The matrix units (O17 to O21) -/

/-- A 1 × 1 × 1 product with its tile at the scratchpad's last place, overwriting. -/
def plate : MPlate := { MPlate.zero with overwrite := true, m := 1, n := 1, k := 1, accBase := 0x5EFBC0 }
/-- The command of a plate, waiting for event 0 to reach 1 or not. -/
def mm (op : MOp) (p : MPlate) (wait : Bool) : QCmd := ⟨0, 9, 0, ⟨true, 15, wait, 0, 1⟩, .mm op p⟩
/-- Tile 0 with a command waiting for F. -/
def mmQueued (c : QCmd) : State := inTile { Tile.reset with f := ⟨[c], none⟩ }
/-- Tile 0 with a command in flight in F. -/
def mmRun (r : MRun) : State := inTile { Tile.reset with f := ⟨[], some r⟩ }
/-- A product in flight with halves. -/
def running (p : MPlate) (hs : List HalfRun) : MRun := { MRun.start (mm .f p false) with halves := hs }
/-- The half of a product whose one column is closed. -/
def half : HalfRun := { newHalf plate 0 0 0 true with opened := true, closed := 1, anchored := true }

theorem working_run (p : MPlate) (hs : List HalfRun) :
    (mmRun (running p hs)).working 0 .f (running p hs) .f p := ⟨rfl, rfl, rfl, rfl, rfl, rfl, rfl⟩
/-- The extents' boundary: a tile that ends with the scratchpad, and one that begins a line later. -/
theorem test_matrix_start :
    (∀ wait ∈ [false, true], let c := mm .f plate wait
      (mmQueued c).tileOn 0 = true ∧ (((mmQueued c).tile 0).unit .f).queue = [c] ∧ (mmQueued c).runOf 0 .f = none ∧
      ((mmQueued c).tile 0).headHeld c = false ∧ (mmQueued c).waitMet 0 c = !wait) ∧
    (∀ e ∈ mmExtents .f plate, e.1 + e.2 ≤ 0x600000) ∧
    (∃ e ∈ mmExtents .f { plate with accBase := 0x5EFC00 }, 0x600000 < e.1 + e.2) ∧
    (let c := { mm .f plate false with seq := 1 }
     ((inTile { Tile.reset with f := ⟨[c], none⟩, dm := [mm .f plate true] }).tile 0).headHeld c = true) := by decide
theorem test_matrix_end :
    (let r := { running plate [half] with abortReq := true }
     (mmRun r).tileOn 0 = true ∧ (mmRun r).runOf 0 .f = some r ∧ r.fedCols = 0 ∧ r.stop = none ∧ r.finished = false ∧
       0 < r.sweeps) ∧
    (let r := { running plate [] with finished := true }
     (mmRun r).tileOn 0 = true ∧ (mmRun r).runOf 0 .f = some r ∧ r.abortReq = false ∧ r.res.isFault = false ∧
       r.cmd.hdr.sigEv < 16) ∧ (running plate []).finished = false := by decide
/-- A block scaled E2M1 product, whose anchors need a scan, and a derivative. -/
theorem test_matrix_loads : ∃ p : MPlate, let hs := groupHalves p 0
    MOp.f ≠ .drain ∧ 0 < (running p hs).sweeps ∧ nextBlock p 1024 0 = some 0 ∧ (running p hs).stat.length < 2 ∧
    (running p hs).streamNext < (running p hs).sweeps ∧ (running p hs).stream.length < 2 ∧
    (∃ x, (running p hs).halves.find? (fun x => !x.anchored) = some x ∧
      ∀ y ∈ (running p hs).halves, sameGroup y x = true → y.hdrRead = true) ∧ needsScan p = true :=
  ⟨{ plate with fmtA := 2 }, by decide, by decide, by decide, by decide, by decide, by decide, ⟨_, rfl, by decide⟩,
    by decide⟩
theorem test_z_load : let p := { plate with deriv := true }
    (inTile { Tile.reset with b0 := ⟨[], some (running p [half])⟩ }).working 0 .b0 (running p [half]) .f p ∧
    (running p [half]).z.length < 4 ∧ ((running p [half]).halves.find? fun x => !x.noDrain &&
      !(running p [half]).z.any fun z => z.p == x.p && z.g == x.g && z.h == x.h) = some half ∧
    (running p [half]).zDue p half = true :=
  ⟨⟨by decide, rfl, rfl, rfl, rfl, rfl, rfl⟩, by decide, rfl, by decide⟩
/-- A half whose header is due, one that waits for its header, one that fills, and one that spills its first, second and
last column, in a tile whose adder is idle. -/
theorem test_matrix_window : half.base = some 0x5EFBC0 ∧ (∀ x, Tile.reset.adderHasHalf x = false) ∧
    { half with spilled := 64 }.headerReady .f plate = true ∧
    (let x := newHalf { plate with overwrite := false } 0 0 0 false
     x.headerReady .f plate = false ∧ x.hdrRead = false ∧ headerDue x [x] = true ∧ x.hdrDone = false ∧
       (let y := { x with hdrRead := true }
        (y.hdrRead || MOp.f != .drain) = true ∧ y.fresh = false ∧ y.filled < y.nt ∧ colFree plate y y.filled 0 [y] = true)) ∧
    (∀ n ∈ [0, 1, 63], { half with spilled := n }.spillReady .f plate = true ∧ n ∉ half.skip ∧ n < 64) :=
  ⟨by decide, fun x => by unfold Tile.adderHasHalf Tile.adderHas; cases x.base <;> rfl, by decide, by decide, by decide⟩
theorem level_up (r : MRun) : (mmRun r).level 0 ((0 : TileId).val / 64) = 0 := rfl
theorem duty_full (i : Nat) : dutyOpen 0 i = true := by unfold dutyOpen; simp
theorem duty_cut : ∃ i, dutyOpen 8 (i + 1) = false := by
  rcases (by omega : (1 + Config.dutyPhase) * (16 - 8) % 16 = 0 ∨ (1 + Config.dutyPhase) * (16 - 8) % 16 = 8) with h | h
  · exact ⟨1, by unfold dutyOpen; simp; omega⟩
  · exact ⟨0, by unfold dutyOpen; simp; omega⟩
/-- A product whose first column is loaded: its feeder has a column to read; without its stationary block it waits. -/
def loaded (stat : List StatHalf) (fed : Nat) : MRun :=
  { running plate [half] with stat := stat, fedCols := fed, stream := [⟨0, [⟨[], 0⟩, ⟨[], 0⟩]⟩] }
theorem test_pipeline_feeds :
    let r := loaded [⟨0, 0, 0, 1, [], []⟩] 0
    (mmRun r).working 0 .f r .f plate ∧ r.pipe = [none, none, none, none] ∧ r.abortReq = false ∧ r.fed < r.sweeps ∧
      (({ r with cycle := r.cycle + 1, drainHold := r.drainHold - 1 } : MRun).advance plate).bubble plate
        ((mmRun r).level 0 ((0 : TileId).val / 64)) ((mmRun r).tile 0).adderHasHalf = none ∧ r.upToDate plate := by
  refine ⟨⟨by decide, rfl, rfl, rfl, rfl, rfl, rfl⟩, rfl, rfl, by decide, ?_, fun x c h => by cases h⟩
  rw [level_up]; simp only [MRun.bubble, duty_full]; decide
theorem test_pipeline_waits :
    let r := loaded [] 1
    (({ r with cycle := r.cycle + 1, drainHold := r.drainHold - 1 } : MRun).advance plate).bubble plate
        ((mmRun r).level 0 ((0 : TileId).val / 64)) ((mmRun r).tile 0).adderHasHalf = some 1 ∧ r.fed + r.fedCols = 1 ∧
    r.upToDate plate := by
  refine ⟨?_, rfl, fun x c h => by cases h⟩
  rw [level_up]; simp only [MRun.bubble, duty_full]; decide
/-- A column at each stage, which a check of each kind can strike, and which joins its half. -/
theorem test_pipeline_column :
    let c : PipeCol := ⟨0, 0, [], [(1, 0)], false, none⟩
    let r := { running plate [half] with pipe := [some c, none, some c, some c] }
    (mmRun r).working 0 .f r .f plate ∧ r.halfOf (sweepAt plate c.sweep) c.col = some half ∧ r.halves = [half] ∧
      c.parts[0]? = some (1, 0) ∧ ∀ k ∈ [ChkKind.row, .parity, .place, .win],
        (if k = .parity then some c else if k = .win then some c else if k = .drain then none else some c) = some c :=
  ⟨⟨by decide, rfl, rfl, rfl, rfl, rfl, rfl⟩, by decide, rfl, rfl, by decide⟩
/-- The column at CHK meets its window column: a fresh half whose place is free, and one whose column is filled. -/
theorem test_up_to_date : ∀ fresh ∈ [true, false],
    let c : PipeCol := ⟨0, 0, [], [(1, 0)], false, none⟩
    let x := { half with fresh := fresh, filled := 1 }
    ({ running plate [x] with pipe := [none, none, none, some c] }).upToDate plate := by
  intro fresh h c x y n e
  have key : ∀ f ∈ [true, false], ({ running plate [{ half with fresh := f, filled := 1 }] with
      pipe := [none, none, none, some ⟨0, 0, [], [(1, 0)], false, none⟩] } : MRun).adding =
        some ({ half with fresh := f, filled := 1 }, 0) := by decide
  have free : ∀ f ∈ [true, false], let x := { half with fresh := f, filled := 1 }
      (x.fresh = true ∧ colFree plate x 0 0 [x] = true) ∨ (x.fresh = false ∧ 0 < x.filled) := by decide
  rw [key fresh h] at e
  cases e
  exact free fresh h
theorem test_matrix_drain :
    let wide := { plate with drain := true, ofmt := 6 }
    let narrow := { plate with drain := true, ofmt := 5 }
    (∀ p ∈ [wide, narrow], (half.opened && half.drains p && decide (half.drained < half.nt) &&
        decide (half.drained < half.closed)) = true ∧ p.deriv = false ∧ p.zout = false) ∧
    (running wide [half]).drainHold = 0 ∧ isNarrow wide.ofmt = false ∧ outStaged .f narrow = true ∧
    (running narrow [half]).stageFor half half.drained = some ⟨0, 0, 0, 0, 0, false, 0⟩ ∧
    (let b : StageBlk := ⟨0, 0, 0, 0, 1, true, 0⟩
     let r := { running narrow [half] with stage := [b] }
     r.stage.find? (·.complete) = some b ∧ (r.halves.find? fun x => x.p == b.p && x.g == b.g && x.h == b.h) = some half)
    := by decide

/-! ### Tile registers, tasks (O22, O23) -/

/-- A write of 512 bytes up to the end of instruction memory, free of pins, and one into a pinned bundle; a path that
reaches no register. -/
theorem test_tile_registers :
    (∀ n : Fin 16, up.kernelOff pf (0x1000000 + (127 : TileId).val * 0x10000 + 0x100 + 4 * n.val) =
      some (0x1000000 + (127 : TileId).val * 0x10000 + 0x100 + 4 * n.val)) ∧
    up.kernelOff pf (0x1000000 + (127 : TileId).val * 0x10000 + 0x8300) = some 0x17F8300 ∧
    up.kernelPath (.bar0 1 0) = none ∧
    up.kernelOff pf 0x200FE00 = some (0x2000000 + (0 : TileId).val * 0x10000 + 0xFE00) ∧
    (up.tile 0).pinMeets 0xFE00 512 = false ∧
    ((inTile { Tile.reset with bank1 := { Bank.reset with phase := .issuing, pinned := true, pinBase := 1023, pinLen := 1 } }).tile
      0).pinMeets 0xFE00 512 = true := by decide +kernel
theorem test_mode_switch : flag ((up.setReg 0x1008300 2).reg (0x1000000 + (0 : TileId).val * 0x10000 + 0x8300)) 1 = true ∧
    (up.tile 0).b0 = ⟨[], none⟩ ∧ (up.tile 0).b1 = ⟨[], none⟩ ∧ (up.tile 0).s5Open = false ∧
    ((inTile { Tile.reset with issue := some { issueOf 5 0 with todo := [5] } }).tile 0).s5Open = true ∧
    ((inTile { Tile.reset with b0 := ⟨[mm .f plate false], none⟩ }).tile 0).b0 ≠ ⟨[], none⟩ := by decide
/-- A fetched command of tile 0 with its parameter block: n words at 0. -/
def launchCmd (n : Byte) (addr : Nat) (ph : CmdPhase) : Cmd :=
  { cid := 9, origin := .queue 0 1, engine := 0, kernel := true, part := 0
    bytes := [0x10] ++ List.replicate 30 0 ++ [n] ++ natLe 8 addr ++ List.replicate 24 0, phase := ph, stalled := false, abortReq := false }
def withCmd (c : Cmd) (s : State) : State := { s with cmds := [c] }
theorem test_launch : ∀ f ∈ [(0x1000100, (0 : Word)), (0x1004000, 8), (0x4C, 1)],
    let s := withCmd (launchCmd 0 0 .passed) (up.setReg f.1 f.2)
    s.passed 9 0x10 = some (launchCmd 0 0 .passed) ∧ s.dieLost 0 = decide (f.1 = 0x4C) ∧
      s.retired 0 = decide (f.1 = 0x1004000) ∧ (s.tile 0).ppHold = false := by decide
/-- A launch without a block, one with 255 words in near memory, and one whose block lies where no task reads. -/
theorem test_preload : ∀ c ∈ [launchCmd 0 0 .running, launchCmd 255 0 .running, launchCmd 255 0xF80002000000 .running],
    let s := withCmd c (inTile { Tile.reset with launches := [9] })
    (s.tile 0).launches = c.cid :: [] ∧ (s.tile 0).idleBank (flag (s.reg 0xA0010) 0) = some false ∧
      s.cmd? c.cid = some c ∧ c.phase = .running ∧ s.ecc = [] ∧ s.cxl = [] ∧ s.physAddr c.part c.param = some c.param ∧
      (c.paramLen = 0 ∨ ((s.region c.param).isData 0 = true ∧ s.extentOk c.param c.paramLen = true ∧
        s.reachAll 0 c.param c.paramLen = .ok) ∨ (s.region c.param).isData 0 = false) := by
  decide
theorem test_task_switch : ∀ serial ∈ [false, true], ∀ bad ∈ [false, true], ∀ own ∈ [false, true],
    ∀ ph ∈ [BankPhase.free, .ended],
    let s := inTile { Tile.reset with
      bank0 := { Bank.reset with phase := ph }
      bank1 := { Bank.reset with phase := .preloaded, serial := serial, predBad := own }
      prevBad := bad }
    ((s.tile 0).bank true).phase = .preloaded ∧ (s.tile 0).between = true ∧ s.tileOn 0 = true ∧ s.retired 0 = false ∧
      (s.tile 0).cur.phase = ph := by decide
theorem test_task_complete :
    ((inTile { Tile.reset with bank0 := { Bank.reset with phase := .ended } }).tile 0).doneBank = some false := by decide

/-! ### The vector unit (O24) -/

/-- One FP32 element at the scratchpad's end, copied to its start. -/
def vplate : VPlate :=
  { fmtX := 8, fmtY := 8, fmtD := 8, rnd := 0, scaledX := false, scaledD := false, given := false, accX := false
    stencil := 128, depth := 0, rows := 1, cols := 1, xBase := 0x5FFFFC, xStride := 0, yBase := 0, yStride := 0, dBase := 0
    dStride := 0, xsBase := 0, dsBase := 0, c := 0, tdst := 0x3F800000, tid := 0, seed := 0 }
def vop (op : VOp) (p : VPlate) (wait : Bool) : QCmd := ⟨0, 9, 0, ⟨false, 0, wait, 0, 1⟩, .vop op p⟩
/-- Tile 0 with a vector command in flight, the compute level of its die as given. -/
def vrunning (l : Nat) (r : VRun) : State :=
  ({ up with regs := [(0x1000C, BitVec.ofNat 64 l)] }).setTile 0 { Tile.reset with vrun := some r }
/-- The extents' boundary: an element that ends with the scratchpad, and one that begins at its end. -/
theorem test_vector_start :
    (∀ wait ∈ [false, true], let c := vop .cvt vplate wait
      let s := inTile { Tile.reset with vq := [c] }
      s.tileOn 0 = true ∧ s.ecc = [] ∧ (s.tile 0).vq = [c] ∧ (s.tile 0).vrun = none ∧ (s.tile 0).headHeld c = false ∧
        s.waitMet 0 c = !wait) ∧
    (∀ e ∈ vopExtents .cvt vplate, e.1 + e.2 ≤ 0x600000) ∧
    (∃ e ∈ vopExtents .cvt { vplate with xBase := 0x600000 }, 0x600000 < e.1 + e.2) ∧
    (∀ e ∈ vopExtents .cvt { vplate with accX := true, xBase := 0 }, e.1 + e.2 ≤ 0x600000) ∧
    (up.spNum 0 0x10403 1 = 0 ∧ { up with mem := [(0xF00000010403, 7)] }.spNum 0 0x10403 1 ≠ 0) ∧
    (let c := { vop .cvt { vplate with accX := true, xBase := 0 } false with seq := 1 }
     ((inTile { Tile.reset with vq := [c], dm := [vop .cvt { vplate with accX := true, xBase := 0 } true] }).tile
      0).headHeld c = true) := by decide
theorem test_vector_chunk : ∀ op ∈ [VOp.cvt, .add, .rsum, .tload],
    let r := VRun.start (vop op { vplate with xBase := 0x5FF3C0 } false)
    let s := vrunning 0 r
    (s.tileOn 0 = true ∧ s.ecc = [] ∧ (s.tile 0).vrun = some r ∧ (s.tile 0).spWait = [] ∧ r.finished = false ∧ r.stop = none ∧
      r.abortReq = false ∧ r.entered < chunkCount op { vplate with xBase := 0x5FF3C0 } ∧ s.level 0 0 = 0) ∧
    dutyOpen 0 (r.cycle + 1) = true ∧ 0x5FF3C0 + recLength (s.sp 0 0x5FF3C0 64) = 0x600000 :=
  fun op h => ⟨by revert op; decide, duty_full _, by revert op; decide⟩
theorem test_vector_operations : VOp.cvt.reduces = false ∧ vplate.accX = false ∧ vplate.fmtD ≠ 10 ∧ vplate.dScaled = false ∧
    VOp.add.residue = true := by decide
theorem test_vector_throttled : ∃ i, let r := { VRun.start (vop .cvt vplate false) with cycle := i }
    ((vrunning 8 r).tile 0).vrun = some r ∧ dutyOpen ((vrunning 8 r).level 0 0) (r.cycle + 1) = false := by
  obtain ⟨i, h⟩ := duty_cut
  exact ⟨i, rfl, h⟩
theorem test_vector_retire : let r := { VRun.start (vop .cvt vplate false) with entered := 1 }
    r.pend = [] ∧ r.stop = none ∧ r.finished = false ∧ chunkCount .cvt vplate ≤ r.entered ∧ r.res.isFault = false ∧
      r.cmd.hdr.sigEn = false ∧ ({ r with pend := [⟨0, [(0, [1])], 0, 0⟩] }).pend = ⟨0, [(0, [1])], 0, 0⟩ :: [] := by decide

/-! ### Adders of scratchpads (O25, O26) -/

/-- A tile add for tile 0's first accumulator tile. -/
def anAdd : TileAdd := ⟨[], ⟨0, 0xF00000000000, 66624, 0⟩, ⟨0, 0, 0⟩⟩
/-- The unit that holds a tile one byte into the destination's end, and one just beyond it. -/
theorem test_tile_add : ∀ b ∈ [66624, 66623],
    let r := { MRun.start (mm .drain { plate with accBase := b } false) with
      halves := [{ newHalf { plate with accBase := b } 0 0 0 false with base := some b, opened := true }] }
    let s := inTile { Tile.reset with adds := [anAdd], f := ⟨[], some r⟩ }
    s.tileOn 0 = true ∧ (s.tile 0).spWait = [] ∧ (s.tile 0).adder = none ∧ (s.tile 0).adds = anAdd :: [] ∧ s.ecc = [] ∧
      anAdd.burst.dst = 0xF00000000000 + 0 * 0x1000000 + 0 ∧
      (s.tile 0).unitHolds.any (overlap (tileRange 0)) = decide (b = 66623) := by decide
theorem test_add_done : (Tile.reset.spWait = []) ∧
    ((inTile { Tile.reset with adder := some ⟨0, List.replicate 64 1, ⟨0, 0, 0⟩, .ok⟩ }).tile 0).adder =
      some ⟨0, List.replicate 64 1, ⟨0, 0, 0⟩, .ok⟩ := by decide

/-! ### DMA (O27 to O30) -/

/-- A linear descriptor of n bytes from 8192 to `dst`, with its operation and add format. -/
def linear (o : DescOrigin) (op afmt dst n : Nat) (ph : DescPhase) : Desc :=
  { freshDesc 0 o [BitVec.ofNat 64 (1 + 16 * op + 64 * afmt), 8192, BitVec.ofNat 64 dst, BitVec.ofNat 64 n, 0, 0, 0, 0]
    with phase := ph }
/-- Channel ch with descriptors in flight, running. -/
def inFlight (ch : Nat) (ds : List Desc) : State :=
  (up.setReg (chanReg ch 0x14) 1).setChan ch { Chan.reset with flight := ds }
theorem near_inFlight (ch : Nat) (h : ch ∈ [0, 512]) (ds : List Desc) (d a : Nat) (hd : d < 4) (ha : a < 0x8000000000) :
    (inFlight ch ds).reach d a = .ok := by
  change (up.setReg (chanReg ch 0x14) 1).reach d a = .ok
  rw [List.mem_cons, List.mem_cons] at h
  rcases h with rfl | rfl | h
  · exact near_ok _ _ _ hd ha (by decide) (by decide) (by decide)
  · exact near_ok _ _ _ hd ha (by decide) (by decide) (by decide)
  · cases h
/-- PROD one past what the ring holds, and at what it holds; a path that reaches the registers, and one that does not. -/
theorem test_channel_registers :
    (∀ o ∈ [0, 8, 0xC, 0x14], ∀ n ∈ [(0 : ChanId), 767], up.kernelOff pf (chanReg n o) = some (chanReg n o) ∧
      up.kernelOff (.bar0 1 0) (chanReg n o) = none) ∧
    up.running 0 = false ∧ (inFlight 0 []).running 0 = true ∧
    2 ^ field (up.reg (chanReg 0 8)) 4 0 < (((3 : BitVec 32).setWidth 16 - up.cons 0 : BitVec 16)).toNat ∧
    ¬ 2 ^ field (up.reg (chanReg 0 8)) 4 0 < (((2 : BitVec 32).setWidth 16 - up.cons 0 : BitVec 16)).toNat := by decide +kernel
theorem test_channel_abort : let old := linear (.ring 0) 0 0 0 64 .done
    let d := linear (.ring 1) 0 0 0 64 .moving
    ((inFlight 0 [old, d]).chan 0).flight = [old] ++ d :: [] ∧ (∀ e ∈ [old], e.unstarted = false) ∧ d.unstarted = true ∧
    ((inFlight 0 [old, { old with id := 1 }]).chan 0).flight = [old] ++ [{ old with id := 1 }] ∧
    (up.chan 0).flight = [] := by decide
theorem test_channel_resume : (up.setReg (chanReg 0 0x18) 2).halted 0 = true ∧ (up.setReg (chanReg 0 0x18) 2).stopped 0 = false ∧
    up.halted 0 = false ∧ (up.setReg (moverReg 0 0) 1).stopped 512 = true ∧
    (∀ m ∈ [(0 : Fin 32), 31], up.kernelOff pf (moverReg m 0x10) = some (moverReg m 0x10)) := by decide
theorem test_channel_errors : ∀ o ∈ [DescOrigin.ring 0, .xfer 0 0 false false], ∀ st ∈ [Status.memUe, .bounds],
    let d := { linear o 0 0 0 64 .moving with fail := some (st, 8192, false) }
    ((inFlight 0 [d]).chan 0).flight = [] ++ d :: [] ∧ d.phase ≠ .done ∧ d.stop = false ∧ d.live = true ∧
      d.isXfer = decide (o ≠ DescOrigin.ring 0) := by decide
theorem test_mover_error : ((inFlight 519 [linear (.ring 0) 0 0 0 64 .moving]).chan (512 + 8 * (0 : Fin 32).val + 7)).flight ≠ [] ∧
    (∀ k, k < 8 → (up.chan (512 + 8 * (0 : Fin 32).val + k)).flight = []) := by decide
/-- Channel 0 of tile 0 with a ring at `base` that holds PROD = `prod`, the first entry's byte 0 as given. -/
def ringAt (base : Word) (prod : Word) (own : Byte) : State :=
  ((({ up with mem := if own = 0 then [] else [(0, own)] }).setReg (chanReg 0 0) base).setReg (chanReg 0 0xC) prod).setReg
    (chanReg 0 0x14) 1
theorem test_descriptor_fetch : (ringAt 0 0 1).mayFetch 0 = true ∧ (ringAt 0 1 1).mayFetch 0 = true ∧
    (ringAt 0 1 1).split = false ∧ (ringAt 0 1 1).ecc = [] := by decide
/-- The entry that would be fetched next. -/
def nextEntry (s : State) : BitVec 16 := s.cons 0 + BitVec.ofNat 16 ((s.chan 0).flight.filter Desc.isRing).length
theorem test_descriptor_ring : nextEntry (ringAt 0 0 1) = (ringAt 0 0 1).prod 0 ∧
    nextEntry (ringAt 0 1 1) ≠ (ringAt 0 1 1).prod 0 := by decide
theorem test_descriptor_own : ∀ own ∈ [(0 : Byte), 1],
    (((descWords ((ringAt 0 1 own).bytes 0 64)).getD 0 0).getLsbD 0 = true ↔ own = 1) := by decide +kernel
theorem test_descriptor_outside : (ringAt 0x8000000000 1 0).mayFetch 0 = true ∧
    (ringAt 0x8000000000 1 0).region ((ringAt 0x8000000000 1 0).reg (chanReg 0 0)).toNat = .outside := by decide
theorem test_descriptor_reach (k : Nat) (h : k < 64) : (ringAt 0 1 1).reach (chanDie 0) (0 + k) = .ok :=
  near_ok _ _ _ (by decide) (by omega) (by decide) (by decide) (by decide)
/-- Descriptors that move, that reach register space without the right, and that end beyond near memory. -/
theorem test_descriptor_start : ∀ op ∈ [0, 1, 2],
    (let d := linear (.ring 0) op (if op = 1 then 1 else 0) 0x7FFFFFFFC0 64 .fetched
     let s := inFlight 0 [d]
     (s.chan 0).flight = [] ++ d :: [] ∧ d.waits = true ∧ s.mayMove 0 d = true ∧ s.running 0 = true ∧ d.op = op ∧
      s.startCheck 0 d = (.ok, false)) ∧
    (let d := linear (.ring 0) op 0 0xF80003FFFFF8 8 .fetched
     d.extents.any regExtent = true ∧ d.isRing = true ∧ flag ((inFlight 0 [d]).reg (chanReg 0 8)) 5 = false) ∧
    (let d := linear (.ring 0) op 0 0x7FFFFFFFC0 65 .fetched
     d.extents.any regExtent = false ∧ (∃ e ∈ d.extents, (inFlight 0 [d]).extentAt 0 e = none) ∧
       (inFlight 0 [d]).sideFlow 0 d.src = none ∧ (inFlight 0 [d]).sideFlow 0 d.dst = none) := by decide
/-- A descriptor whose destination lies at a flow that is not up. -/
theorem test_descriptor_flow : let d := linear (.ring 0) 0 0 0x8000000000000 64 .fetched
    (inFlight 0 [d]).startCheck 0 d = (.linkDown, false) := by decide
theorem test_xfer_start : let d := linear (.xfer 0 0 false false) 0 0 0 64 .fetched
    let s := inFlight 0 [d]
    s.startCheck 0 d = (.ok, false) ∧ d.isXfer = true ∧
      ∀ e ∈ d.dstExt, ∀ a, s.extentAt (s.chanPart 0) e = some a → s.imemOff (s.chanPart 0) a = none := by
  refine ⟨by decide, by decide, fun e he a h => ?_⟩
  change e ∈ [((0 : Int), 64)] at he
  cases List.mem_singleton.1 he
  have : some 0 = some a := h
  cases this
  rfl
/-- No stack runs a tile add: no byte is held. -/
theorem unheld_ok (s : State) (h : ∀ e ∈ s.hbm, e.2.run = none) (a n : Nat) : s.unheld a n := by
  intro k r e
  have key : ∀ t : Table Stack, (∀ e ∈ t, e.2.run = none) → (tget (fun _ => Stack.reset) t k).run = none := by
    intro t
    induction t with
    | nil => intro _; rfl
    | cons x t ih =>
      intro h
      unfold tget
      split
      · exact h x (List.mem_cons_self ..)
      · exact ih fun e he => h e (List.mem_cons_of_mem _ he)
  exact absurd (e.symm.trans (key s.hbm h)) (by simp)
/-- A burst up to the next 4 KiB boundary, of a user channel and of a mover's channel at its turn. -/
theorem test_burst : ∀ ch ∈ [0, 519], ∀ op ∈ [0, 1, 2],
    let d := linear (.ring 0) op (if op = 1 then 1 else 0) 0x7FFFFFF800 4096 .moving
    let s := inFlight ch [d]
    let b := d.nextBurst (d.cur.getD 0)
    s.chanWork ch = some (d, none) ∧ (512 ≤ ch → s.moverTurn (moverOf ch) = some ch) ∧ d.isRing = true ∧ d.kind = 0 ∧
      d.op = op ∧ s.split = false ∧ s.ecc = [] ∧ s.hbm = [] ∧ b.dst + b.len ≤ 0x8000000000 ∧
      b.src + b.len ≤ 0x8000000000 ∧ (op = 1 → d.afmt ≠ 0) := by decide
theorem test_burst_reach (i : Nat) (h : i < 4096) : ∀ a ∈ [0x7FFFFFF000, 8192], ∀ ds,
    (inFlight 0 ds).reach (chanDie 0) (a + i) = .ok := fun a ha ds =>
  near_inFlight 0 (by decide) ds _ _ (by decide) (by
    simp only [List.mem_cons, List.not_mem_nil, or_false] at ha
    omega)
theorem test_retry : let s := up.setChan 0 { Chan.reset with retry := [anAdd] }
    (s.chan 0).retry = anAdd :: [] ∧ s.region anAdd.burst.dst = .scratch 0 := by decide
/-- Ring entries of a user channel and of a mover's that end OK with a signal, and one that ends with BOUNDS. -/
theorem test_descriptor_complete : ∀ ch ∈ [0, 512], ∀ st ∈ [Status.ok, .bounds],
    let d := { linear (.ring 0) 0 0 0 64 .done with
      words := [BitVec.ofNat 64 (1 + 1024 + 2048 * 65535), 0, 0, 64, 0, 0, 0, 0], status := st }
    let s := inFlight ch [d]
    s.dieOn (chanDie ch) = true ∧
      ((s.chan ch).flight.zipIdx.find? fun (p : Desc × Nat) => s.completable ch p) = some (d, 0) ∧
      s.split = false ∧ s.ecc = [] ∧ s.hbm = [] ∧ d.dropped = false ∧ d.byReg = false ∧ d.again = [] ∧
      (s.chan ch).posts = [] ∧
      (s.reg (chanReg ch 0)).toNat + 64 * (0 % 2 ^ field (s.reg (chanReg ch 8)) 4 0) + 64 ≤ 0x8000000000 ∧
      s.dieLost (ctrDie d.sigIdx) = false ∧ d.sigIdx = 65535 ∧ (d.sigEn = true ∧ (d.status = .ok ↔ st = .ok)) := by decide
theorem test_entry_reach (j : Nat) (h : j < 64) (ds : List Desc) : (inFlight 512 ds).reach (chanDie 512) (0 + j) = .ok :=
  near_inFlight 512 (by decide) ds _ _ (by decide) (by omega)

/-! ### Near and far memory, adders (O31 to O35) -/

theorem test_interleave : up.dieLocal = false ∧ (up.setReg 8 1).dieLocal = true ∧ 0x7FFFFFFFFF < 2 ^ 39 ∧
    up.stackOf 0x7FFFFFFFFF = 7 ∧ (up.setReg 8 1).stackOf 0x3FFFFFFFFF = 3 ∧
    (up.setReg 8 1).stackOf 0x4000000000 = 4 := by decide
/-- Stack 7, its scrub as at reset or turned off; the last sector of near memory lies there. -/
def stackSeven (scrub : Word) : State := (up.setReg (stackReg 7 0) 1).setReg (stackReg 7 0x18) scrub
theorem test_controllers : (stackSeven 0x18).stackOf 0x7FFFFFFFFF = 7 ∧ (stackSeven 0x18).stackOn 7 = true ∧
    (stackSeven 0x18).ecc = [] ∧ (stackSeven 0x18).split = false ∧
    field ((stackSeven 0x18).reg (stackReg 7 0x18)) 7 0 ≠ 0 ∧ (stackSeven 0).stackOn 7 = true ∧
    field ((stackSeven 0).reg (stackReg 7 0x18)) 7 0 = 0 ∧ (0x7FFFFFFFFF : NearAddr).val % 64 + [0x55#8].length = 64 ∧
    (stackSeven 0x18).hbm = [] := by decide
/-- A request of partition 0 at controller 3 of CD1, whose memory duty and grants in the cycle are as given; the
partition is regulated, shares or not, and holds the tokens given. -/
def regulated (share : Bool) (tokens : Int) (grants : Nat) : State :=
  let s := ((stackSeven 0x18).setReg (memReg 1 0 0) (if share then 0x3000000 else 0x2000000)).setToken 1 0 tokens
  { s with
    mgrants := [(7, grants)]
    fab := [{ cls := .req, src := 0, active := 1, addr := 0x7FFFFFFF80, len := 128, read := true, part := some 0
              narrow := false, path := [⟨.cd1, .hbmController, 3, 0⟩], back := [], lines := 2 }] }
theorem test_regulators : up.dieLost (0 : Fin 2) = false ∧ (regulated false 0 0).stackOn 7 = true ∧
    (let h : FabHead := ⟨0, 0, 1, some 0⟩
     (∀ share tokens grants, (regulated share tokens grants).heads .cd1 .hbmController 3 .req = [h]) ∧
     (∀ t ∈ [(0 : Int), 1], (regulated false t 31).headEligible 1 h = decide (0 < t)) ∧
     (regulated true 0 31).headEligible 1 h = false ∧ (regulated true 0 31).headShares 1 h = true ∧
     dieOf ((7 : Fin 8).val / 4) = .cd1 ∧ (7 : Fin 8).val % 4 = 3) ∧
    (regulated false 0 31).mgrant 7 < 2 * (16 - (regulated false 0 31).level 1 1) ∧
    2 * (16 - (regulated false 0 32).level 1 1) ≤ (regulated false 0 32).mgrant 7 ∧
    (regulated false 0 0).regEn 1 0 = true ∧ (regulated false 0 0).token 1 0 ≤ 0 := by
  refine ⟨by decide, by decide, ⟨fun _ _ _ => rfl, by decide, by decide, by decide, rfl, rfl⟩, by decide, by decide,
    by decide, by decide⟩
theorem test_regulator_registers : (∀ p ∈ [(0 : Fin 16), 15],
      up.kernelOff pf (memReg (1 : Fin 2) p 0) = some (memReg (1 : Fin 2) p 0)) ∧
    (∀ j ∈ [(0 : Fin 21), 20], up.kernelOff pf (0x54000 + 4 * j.val) = some (0x54000 + 4 * j.val)) := by decide +kernel
/-- A tile add that a stack runs elsewhere holds no byte of a range beside it. -/
theorem test_unheld : let r : AdderRun := ⟨0x10000, [], ⟨0, 0, 0⟩, .ok⟩
    overlap (0x10000 - 32, 32) (tileRange r.base) = false ∧ overlap (0x10000 - 31, 32) (tileRange r.base) = true := by
  decide
/-- An element add that fills a sector's end, and one that goes on in the next sector. -/
theorem test_element_add : ∀ n ∈ [32, 40],
    let e : ElemAdd := ⟨4, 0x7FFFFFFF80, List.replicate n 1, ⟨0, 0, 0⟩⟩
    let s := (stackSeven 0x18).setStack 7 { Stack.reset with elems := [e] }
    s.stackOn (7 : Fin 8) = true ∧ (s.stack (7 : Fin 8)).elems = e :: [] ∧ 1 ≤ e.afmt ∧ e.afmt ≤ 4 ∧ s.ecc = [] ∧
      (n = 32 ↔ min e.bytes.length (32 - e.addr % 32) = e.bytes.length) ∧
      ({ s with ecc := [(e.addr / 32 * 32, Ecc.uncorrectable)] }).ecc = [(e.addr / 32 * 32, Ecc.uncorrectable)] ∧
      e.addr < 0x8000000000 := by decide
theorem test_memory_tile_add : let a : TileAdd := ⟨[], ⟨0, 0x7FFFFE0000, 66624, 0⟩, ⟨0, 0, 0⟩⟩
    let s := (stackSeven 0x18).setStack 7 { Stack.reset with tiles := [a] }
    s.stackOn (7 : Fin 8) = true ∧ (s.stack (7 : Fin 8)).run = none ∧ (s.stack (7 : Fin 8)).tiles = a :: [] ∧ s.ecc = [] ∧
      (∀ i, i < 66624 → s.reach ((7 : Fin 8).val / 4) (a.burst.dst + i) = .ok) ∧ ∀ b n, s.unheld b n := by
  refine ⟨by decide, by decide, by decide, by decide, fun i h => near_ok _ _ _ (by decide) ?_ (by decide) (by decide)
    (by decide), ?_⟩
  · change 0x7FFFFE0000 + i < _
    omega
  · exact unheld_ok _ (by decide)
/-- The act after it: the header, the answer. -/
theorem test_memory_tile_header : let r : AdderRun := ⟨0x7FFFFE0000, List.replicate 64 1, ⟨0, 0, 0⟩, .ok⟩
    let s := (stackSeven 0x18).setStack 7 { Stack.reset with run := some r }
    s.stackOn (7 : Fin 8) = true ∧ (s.stack (7 : Fin 8)).run = some r := by decide
/-- Far port 3, up with two lines, one of which has a request. -/
def farUp (wr : Option (List (Fin 64 × Byte))) : State :=
  ((up.setReg (cxlReg 3 0) 1).setReg (cxlReg 3 8) 128).setCxl 3 [⟨1, wr, true, none⟩]
theorem test_far : ∀ wr ∈ [none, some [((0 : Fin 64), (7 : Byte)), (63, 8)]],
    (farUp wr).cxlUp (3 : Fin 4) = true ∧ 64 * 1 < (farUp wr).farCap 3 ∧ up.cxlUp (3 : Fin 4) = false ∧
    ((farUp wr).cxlReqs 3).find? (fun (r : CxlReq) => r.line == (1 : FarLine).val) = some ⟨1, wr, true, none⟩ ∧
    (List.replicate 64 (0 : Byte)).length = 64 ∧ ∀ bs, wr = some bs → (bs.map (·.1)).Nodup :=
  fun wr h => ⟨by revert wr; decide, by revert wr; decide, by decide, by revert wr; decide, by decide,
    fun bs e => by subst e; simp at h; subst h; decide⟩

/-- A channel's write to a far line that times out. -/
theorem test_far_burst : let d := linear (.ring 0) 0 0 0 64 .moving
    let s := (inFlight 0 [d]).setCxl 3 [⟨1, some [(0, 7)], true, some ⟨0, 0, 0x1C0000000040⟩⟩]
    (s.cxlReqs 3).find? (fun (r : CxlReq) => r.line == (1 : FarLine).val) =
      some ⟨1, some [(0, 7)], true, some ⟨0, 0, 0x1C0000000040⟩⟩ ∧
    (s.chan 0).flight = [] ++ d :: [] ∧ d.id = 0 ∧ d.live = true := by decide

/-! ### The fabric (O36 to O38) -/

/-- A packet that waits at an island's uplink, its controller the next output on its path. -/
def waiting (cls : FabClass) (input active : Nat) : FabPkt :=
  { cls := cls, src := input, active := active, addr := 0, len := 64, read := true, part := none, narrow := false
    path := [⟨.cd0, .islandUplink, 0, input⟩, ⟨.cd0, .hbmController, 0, 0⟩], back := [], lines := 1 }
/-- An island's uplink with two packets of a class, in which input 1 has waited n grants. -/
def waited (cls : FabClass) (n : Nat) : State :=
  { up with arbs := [(arbKey .cd0 .islandUplink 0 cls, ⟨[], [(1, n)], 1⟩)], fab := [waiting cls 0 1, waiting cls 1 255] }
/-- At the age limit and below it, in a weighted class and an unweighted one, both with credits at rest. -/
theorem test_arbiter : Instr.wf (.arbiterGrant .cd0 .islandUplink 0 0 false false) = true ∧
    Instr.wf (.arbiterGrant .nd1 .seamRole 2 2 false false) = true ∧ up.dieLost (dieNum .cd0) = false ∧
    ArbKind.islandUplink ≠ .hbmController ∧ weighted .islandUplink .req = true ∧ weighted .islandUplink .rsp = false ∧
    (∀ n, ∀ cls ∈ [FabClass.req, .rsp], (waited cls n).hasCredit (creditKey .cd0 (arbLink .islandUplink 0) cls) = true) ∧
    ∀ cls ∈ [FabClass.req, .rsp], cls ∈ ArbKind.islandUplink.classes ∧
      (let ws : List FabHead := [⟨0, 0, 1, none⟩, ⟨1, 1, 255, none⟩]
       let a := fun (n : Nat) => tget (fun _ => Arb.reset) (waited cls n).arbs (arbKey .cd0 .islandUplink 0 cls)
       (∀ n ∈ [0, 7, 8], (waited cls n).heads .cd0 .islandUplink 0 cls = ws) ∧
         (∀ h ∈ ws, (a 7).wait h.input < ageLimit .islandUplink) ∧
         ws.find? (fun h => decide (ageLimit .islandUplink ≤ (a 8).wait h.input)) = some ⟨1, 1, 255, none⟩ ∧
         (∀ h ∈ ws, h.input ≤ (a 0).last) ∧ (∃ h ∈ ws, Arb.reset.last < h.input)) ∧
      (waited cls 0).fab[0]? = some (waiting cls 0 1) ∧
      (∀ i, FabHop.seam ⟨.cd0, .hbmController, 0, 0⟩ = some i → (waited cls 0).seamLost i = false) := by
  refine ⟨by decide, by decide, by decide, by decide, by decide, by decide, fun n cls h => ?_, ?_⟩
  · unfold State.hasCredit
    have z : (waited cls n).linkCredit (creditKey .cd0 (arbLink .islandUplink 0) cls) = 0 := rfl
    simp [z]
  · intro cls h
    simp only [List.mem_cons, List.not_mem_nil, or_false] at h
    rcases h with rfl | rfl <;> exact ⟨by decide, by decide, by decide, fun i e => by cases e⟩
/-- An output whose credits are all used up: heads wait, and no class is ready. -/
theorem test_no_credit : let k := creditKey .cd0 (arbLink .islandUplink 0) .req
    ((waited .req 0).setLinkCredit k (-(Config.linkSlots k + 1 : Int))).hasCredit k = false := by
  intro k
  unfold State.hasCredit State.linkCredit State.setLinkCredit
  simp only [tget_tset_same]
  simp only [decide_eq_false_iff_not]
  omega
theorem test_credit : (let k := creditKey .cd0 0 .req
     ((up.setLinkCredit k (-1)).linkCredit k + (1 : Nat) ≤ 0 ∧
       -((up.setLinkCredit k (-1)).linkCredit k + (1 : Nat)) ≤ Config.linkSlots k + 1) ∧
     0 < up.linkCredit k + (1 : Nat)) ∧ Instr.wf (.creditReturn .cd0 0 .req 1) = true := by
  refine ⟨⟨⟨by decide, ?_⟩, by decide⟩, by decide⟩
  have z : (up.setLinkCredit (creditKey .cd0 0 .req) (-1)).linkCredit (creditKey .cd0 0 .req) + ((1 : Nat) : Int) = 0 := by
    decide
  rw [z]
  omega
theorem test_wait_max : up.portServes (0 : Fin 2) = true ∧ up.mode ≠ .off ∧ up.mode ≠ .tripped := by decide
theorem test_sub_banks : subBank (4 : SpWord) = subBank (0x100 : SpWord) ∧ (⟨0, 4⟩ : SpReq).port ≠ (⟨1, 0x100⟩ : SpReq).port ∧
    (up.tile 0).spWait = [] := by decide

/-! ### Optical ports, frames and flows (O39 to O43) -/

/-- Port 0 with its link up, and context 0 in a state on it: every operation permitted, a window of 4 KiB at 0, a ring of
two entries at 0 with one posted, TX_PSN 1. -/
def net (st : Nat) (f : Flow) : State :=
  { up with
    regs := [(netPortReg 0 4, 1), (flowReg 0 0, BitVec.ofNat 64 (0x1F000 + st)), (flowReg 0 2, 0xC0000000000000),
      (flowReg 0 3, 0x10000000000000), (flowReg 0 4, 1), (flowReg 0 5, 1)]
    flows := [(0, f)] }
/-- Port 0 in Ethernet mode, up. -/
def ethernetUp : State := { up with regs := [(netPortReg 0 0, 1), (netPortReg 0 4, 1)] }
theorem near_net (f : Flow) (xs : List (Nat × Arrival)) (js : List Job) (d a : Nat) (hd : d < 4) (ha : a < 0x8000000000) :
    State.reach { net 1 f with arrived := xs, jobs := js } d a = .ok := by
  change (net 1 Flow.reset).reach d a = .ok
  exact near_ok _ _ _ hd ha (by decide) (by decide) (by decide)
/-- A packet that waits to be sent or stands in the store. -/
def stored (ptype : Nat) (payload : List Byte) (owner : Owner) (rnr : Bool) : Stored :=
  ⟨pkt ptype payload, false, rnr, false, owner, 64⟩
/-- A packet as it arrived by port 0's link, in its buffer for requests. -/
def arr (p : Packet) : Arrival := ⟨p, packetBytes p, 0, 0, 0, .req, 2, 0⟩
def withStore (xs : List Stored) : Flow := { Flow.reset with store := xs }
theorem test_port_train : up.mode = .running ∧ up.dieLost (2 + (0 : Fin 32).val / 16) = false ∧ up.subPorts 0 = 1 ∧
    16 + (0 : Fin 32).val / 16 ∉ up.domainLost ∧
    flag (up.reg (netPortReg 0 4)) 0 = false ∧ flag (up.reg (netPortReg 0 4)) 5 = false ∧ 0 < up.subPorts 0 ∧
    flag ((net 1 Flow.reset).reg (netPortReg 0 4)) 0 = true := by decide
theorem test_link : let s := (net 1 (withStore [stored 0 [1] .none false])).setLink 0 0 { Link.reset with held := true }
    s.linkUp 0 0 = true ∧ s.ethernet 0 = false ∧ (s.link 0 0).held = true ∧ s.linkFlows 0 0 = [0] ∧
      (s.flow 0).store = [stored 0 [1] .none false] ∧ s.flowUp 0 = true ∧
      s.flowRoom 0 (pkt 0 [1]) = true ∧ s.level 2 (flowDie 0 - 2) = 0 ∧
      (s.setLink 0 0 { Link.reset with held := true, sent := [(0, 1023)] }).flowRoom 0 (pkt 0 [1]) = false ∧
      ethernetUp.linkUp 0 0 = true ∧
      ethernetUp.ethernet 0 = true := by decide
theorem test_link_held :
    let down := { net 1 Flow.reset with regs := (netPortReg 0 4, 0) :: (net 1 Flow.reset).regs }
    let s := down.setLink 0 0 { Link.reset with held := true }
    s.linkUp 0 0 = false ∧ (s.link 0 0).held = true ∧ s.flowPort 0 = 0 ∧ s.flowSub 0 = 0 ∧ s.flowState 0 = 1 := by decide
/-- A context in each state; a word 0 that names a link of its die, and one of the wrong mode. -/
theorem test_flow_states : (∀ st ∈ [0, 1, 2, 3], (net st Flow.reset).flowState (0 : FlowId) = st) ∧
    (∀ k, k < 8 → ∀ st ∈ [0, 1, 2, 3], (net st Flow.reset).kernelOff pf (flowReg 0 k) = some (flowReg 0 k)) ∧
    (net 0 Flow.reset).flowLinkOk 0 (maskIn ((net 0 Flow.reset).reg (flowReg 0 0)) (putField 0 2 0 1) 0x7FFFFFFFFF) = true ∧
    (net 0 Flow.reset).flowLinkOk 0 (maskIn ((net 0 Flow.reset).reg (flowReg 0 0)) (putField 8 2 0 1) 0x7FFFFFFFFF) = false ∧
    ((net 2 Flow.reset).flow 0).store = [] ∧ ((net 2 Flow.reset).flow 0).queue = [] ∧
    ((net 2 (withStore [stored 0 [1] .none false])).flow 0).store ≠ [] := by decide
/-- Frames with a bad header, of link status, and with a packet before its last hop, at its final hop, and one that R325
rejects, whose CRC is good or has failed by a bit. -/
def nativeFrames : List (List Byte) :=
  [List.replicate 64 0, statusFrame (List.replicate 6 3) (List.replicate 6 2)] ++
    [{ pkt 0 [1] with nhops := 1 }, pkt 0 [1], pkt 9 []].flatMap fun p =>
      let f := packetFrame 0 2 (List.replicate 6 0) (packetBytes p)
      [f, listSet f 40 1]
theorem test_native_frame : (net 1 Flow.reset).linkUp 0 0 = true ∧ (net 1 Flow.reset).ethernet 0 = false ∧
    (∀ f ∈ nativeFrames, nativeLen f.length = true) ∧
    nativeFrames.map (fun f => ((nativeOf f).hcrcGood, (nativeOf f).packet.isNone)) =
      [(false, false), (true, true), (true, false), (true, false), (true, false), (true, false), (true, false), (true, false)] ∧
    (nativeFrames.drop 2).map (fun f => (nativeOf f).crcGood) = [true, false, true, false, true, false] ∧
    (nativeFrames.drop 2).map (fun f => let q := packetOf (((nativeOf f).packet).getD [])
      (decide (q.rptr < q.nhops), badPacket q)) = [(true, false), (true, false), (false, false), (false, false),
        (false, true), (false, true)] := by decide +kernel
/-- Ethernet frames: of another EtherType, with a bad check sequence, with a packet that has hops, with a good packet, and
one that pauses priority 0 while flow control by priority is in use. -/
theorem test_ether_frame : let fr := fun (et : Nat) (p : Packet) => etherFrame 0 0 none et (packetBytes p)
    ethernetUp.linkUp 0 0 = true ∧ ethernetUp.ethernet 0 = true ∧ ethernetUp.pfc = false ∧
    field (ethernetUp.reg 0x70000) 15 0 = 0 ∧
    (∀ f ∈ [fr 1 (pkt 0 [1]), fr 0 (pkt 0 [1]), fr 0 { pkt 0 [1] with nhops := 1 }, pfcFrame 0 1 5],
      etherLen f.length = true ∧ (etherOf f).fcsGood = true) ∧
    (etherOf (fr 1 (pkt 0 [1]))).etherType = 1 ∧ (etherOf (fr 0 (pkt 0 [1]))).etherType = 0 ∧
    (etherOf (listSet (fr 0 (pkt 0 [1])) 20 1)).fcsGood = false ∧
    (etherOf (listSet (fr 0 (pkt 0 [1])) 20 1)).etherType = 0 ∧
    (packetOf (etherOf (fr 0 { pkt 0 [1] with nhops := 1 })).packet).nhops = 1 ∧
    (packetOf (etherOf (fr 0 (pkt 0 [1]))).packet).nhops = 0 ∧ badPacket (packetOf (etherOf (fr 0 (pkt 0 [1]))).packet) = false ∧
    (ethernetUp.setReg 0x70008 1).pfc = true ∧ (etherOf (pfcFrame 0 1 5)).etherType = 0x8808 ∧
    bytesBe (etherOf (pfcFrame 0 1 5)).body 1 0 = 0x0101 ∧ (bytesBe (etherOf (pfcFrame 0 1 5)).body 3 2).testBit 0 = true := by
  decide +kernel
/-- A packet for port 0: its link up with room, without room, and down; and one that stands behind another in the same
buffer, or beside it in a buffer of its own. -/
theorem test_forward : let a : Arrival := arr { pkt 0 [1] with nhops := 1 }
    let b : Arrival := { a with cls := .rsp, buf := 2 }
    let s := { net 1 Flow.reset with forward := [(0, a)] }
    let full := ({ s with forward := [(0, a), (0, a), (0, b)] }).setLink 0 0 { Link.reset with sent := [(0, 1023)] }
    let hop := nextHop a.pkt
    let cells := cellsFor a.raw.length
    buffersFront 0 [] s.forward = [] ++ (0, a) :: [] ∧ buffersFront 0 [] full.forward = [(0, a)] ++ (0, b) :: [] ∧
      s.hopReachable 0 hop.1 hop.2.1 = true ∧ up.hopReachable 0 hop.1 hop.2.1 = false ∧ s.ethernet 0 = false ∧
      s.level 2 (hop.1 / 16) = 0 ∧ s.linkRoom hop.1 hop.2.1 (2 * wireNum a.cls) cells = true ∧
      full.hopReachable 0 hop.1 hop.2.1 = true ∧ full.linkRoom hop.1 hop.2.1 (2 * wireNum a.cls) cells = false ∧
      full.linkRoom hop.1 hop.2.1 (2 * wireNum b.cls) cells = true ∧ 48 ≤ a.raw.length ∧ (packetOf a.raw).rptr < 8 := by
  decide
theorem test_flow_send : let x := stored 0 [1] .none false
    let f := { Flow.reset with queue := [x], ackNow := true }
    ((net 1 f).flow 0).queue = x :: [] ∧ (net 1 f).dueStored 0 = none ∧ (net 1 f).maySend 0 x.pkt = true ∧
      (net 3 f).maySend 0 x.pkt = false ∧ (net 1 f).level 2 (flowDie 0 - 2) = 0 ∧
      ((net 1 f).flow 0).ackNow = true ∧ (net 1 f).flowState 0 = 1 ∧ (net 1 f).flowUp 0 = true ∧
      (net 1 f).flowRoom 0 ((net 1 f).answer 0 7 .ok 0 0 []) = true ∧
      (let y := { x with due := true }
       let s := net 1 (withStore [y])
       s.dueStored 0 = some y ∧ s.flowUp 0 = true ∧ s.flowRoom 0 y.pkt = true) := by decide
/-- A slot of network die 0 in which the duty lets nothing leave, of its ports and of its collective engine. -/
def gatedAt (i : Nat) : State :=
  { net 1 Flow.reset with regs := (0x1000C, 0x80000) :: (net 1 Flow.reset).regs, netSlots := [(0, i + 1), (2, i + 1)] }
theorem test_gated : ∃ i, ∀ k ∈ [0, 2],
    dutyOpen ((gatedAt i).level 2 (flowDie 0 - 2)) (tget (fun _ => 0) (gatedAt i).netSlots k) = false := by
  obtain ⟨i, h⟩ := duty_cut
  refine ⟨i, fun k hk => ?_⟩
  have l : (gatedAt i).level 2 (flowDie 0 - 2) = 8 :=
    (rfl : _ = (gatedAt 0).level 2 (flowDie 0 - 2)).trans (by decide)
  simp only [List.mem_cons, List.not_mem_nil, or_false] at hk
  rcases hk with rfl | rfl <;> (rw [l]; exact h)
/-- The last timeout that NET_TIMERS allows, and the one before it. -/
theorem test_flow_timeout : ∀ n ∈ [5, 6],
    let s := net 1 { withStore [stored 0 [1] .none true, stored 0 [2] .none false] with tries := n }
    s.flowState 0 = 1 ∧ (∃ x ∈ (s.flow 0).store, x.rnr = false) ∧ s.flowUp 0 = true ∧ s.jobs = [] ∧
      (field (s.reg 0x70004) 15 12 ≤ (s.flow 0).tries + 1 ↔ n = 6) ∧ ∃ x ∈ (s.flow 0).store, x.rnr = true := by decide
/-- A packet that has arrived at network die 0 for context 0. -/
def arrivedFor (p : Packet) (f : Flow) : State := { net 1 f with arrived := [(0, arr p)] }
/-- The last eight bytes of the window, which end a sector. -/
def atEnd (ptype : Nat) : Packet := { pkt ptype (List.replicate 8 1) with raddr := 4088, afmt := 4 }
theorem test_target : ∀ k ∈ [0, 1, 3, 5], let s := arrivedFor (atEnd k) Flow.reset
    s.nextArrival (0 : Fin 2) (fun p => p.ptype == k) = some (0, arr (atEnd k)) ∧
      s.flowFor (0 : Fin 2) (atEnd k) = some 0 ∧ s.flowState 0 ≠ 3 ∧ s.psnPlace 0 (atEnd k).psn = .inside 0 ∧
      (s.flow 0).marks = [] ∧ s.ecc = [] ∧ s.hbm = [] ∧ s.ethernet 0 = false ∧
      (∀ op ∈ [0, 1, 2, 3], s.flowPerm 0 op = true) ∧
      s.window 0 (atEnd k).raddr 8 = some 4088 ∧ 4088 % 32 + 8 = 32 ∧ s.atomicOk (atEnd k) 4088 = true ∧
      (atEnd k).fetch = false ∧ s.flowUp 0 = true := by decide
theorem test_target_answer : let s := arrivedFor (atEnd 1) Flow.reset
    s.flowRoom 0 (s.answer 0 2 .ok 0 0 (s.bytes 4088 8)) = true := by decide
theorem test_target_ring : let s := arrivedFor (atEnd 5) Flow.reset
    field (s.reg (flowReg 0 3)) 55 52 = 1 ∧ field (s.reg (flowReg 0 4)) 15 0 ≠ field (s.reg (flowReg 0 4)) 31 16 ∧
      s.memAt (s.flowPart 0) (field (s.reg (flowReg 0 3)) 51 0 + 4160 * (field (s.reg (flowReg 0 4)) 31 16 % 2 ^ 1)) 4160 =
        some 0 := by decide
theorem test_target_reach (a : Nat) (h : a < 0x8000000000) (p : Packet) :
    (arrivedFor p Flow.reset).reach (flowDie 0) a = .ok := near_net _ _ [] _ _ (by decide) h
/-- A packet from another sender, and one whose PSN has been taken. -/
theorem test_target_refuses : (arrivedFor { atEnd 0 with srcFlow := 1 } Flow.reset).flowFor (0 : Fin 2)
      { atEnd 0 with srcFlow := 1 } = none ∧
    (arrivedFor { atEnd 0 with psn := 0xFFFFFFFF } Flow.reset).psnPlace 0 0xFFFFFFFF = .behind := by decide
theorem test_issuer_data :
    (let y := { stored 1 [] (.chan ⟨0, 0, 0⟩) false with pkt := { pkt 1 [] with len := 8 } }
     let s := arrivedFor (atEnd 2) (withStore [y])
     s.nextArrival (0 : Fin 2) (fun p => p.ptype == 2) = some (0, arr (atEnd 2)) ∧
       s.flowFor (0 : Fin 2) (atEnd 2) = some 0 ∧ s.storedFor 0 (atEnd 2).ref (fun q => q.ptype == 1) = some y ∧
       (atEnd 2).status = 0 ∧ (atEnd 2).payload.length = y.pkt.len ∧ y.dst + y.pkt.len ≤ 0x8000000000) ∧
    (let y := { stored 3 [1] (.cmd 9) false with pkt := { pkt 3 [1] with fetch := true } }
     let s := arrivedFor (atEnd 4) (withStore [y])
     s.nextArrival (0 : Fin 2) (fun p => p.ptype == 4) = some (0, arr (atEnd 4)) ∧
       s.storedFor 0 (atEnd 4).ref (fun q => q.ptype == 3 && q.fetch) = some y) := by decide
theorem test_issuer_acks :
    (let p := { pkt 7 [] with cumPsn := 1 }
     let s := arrivedFor p (withStore [stored 0 [1] (.cmd 9) false])
     s.nextArrival (0 : Fin 2) (fun p => p.ptype == 7) = some (0, arr p) ∧ p.sack = 0 ∧
       (p.cumPsn - (s.flow 0).cumSeen).toNat ≤ (s.txPsn 0 - (s.flow 0).cumSeen).toNat) ∧
    (∀ r ∈ [1, 2], let p := { pkt 8 [] with reason := r, status := 1 }
      let y := stored 5 [1] (.cmd 9) false
      let s := arrivedFor p (withStore [y])
      s.nextArrival (0 : Fin 2) (fun p => p.ptype == 8) = some (0, arr p) ∧
        s.storedFor 0 p.ref (fun _ => true) = some y ∧ p.sack = 0 ∧ p.cumPsn = (s.flow 0).cumSeen ∧
        (∀ z ∈ (s.flow 0).store, (z.pkt.psn - p.cumPsn).toNat < 2 ^ 31) ∧ y.pkt.ptype ≠ 6) := by decide

/-! ### Collectives (O44, O45) -/

/-- A job record: n positions, a pool of two slots, one block a chunk, BF16 gradients and parameters, two blocks. -/
def jobBytes (n : Nat) : List Byte :=
  natLe 8 n ++ natLe 8 (2 * 2 ^ 32 + 2 ^ 40 + 6 * 2 ^ 53 + 6 * 2 ^ 57) ++ natLe 8 2 ++ natLe 8 0 ++ natLe 8 0 ++
    natLe 8 4096 ++ List.replicate 144 0
/-- The record's job, at position 0 with one chunk to forward. -/
def aJob (q : List (Chunk × Bool × Bool)) : Job :=
  { newJob 9 0 0 0 (jobRec (jobBytes 2)) with outq := q }
def jobCmd : Cmd :=
  { cid := 9, origin := .queue 0 1, engine := 160, kernel := true, part := 0, bytes := 0x30 :: List.replicate 63 0
    phase := .passed, stalled := false, abortReq := false }
/-- A state with the record of n positions in memory at 0. -/
def jobAt (n : Nat) : State := { net 1 Flow.reset with mem := writeCells (jobBytes n) 0 [], cmds := [jobCmd] }
theorem test_col_job : (∀ n ∈ [1, 2],
    (jobAt n).passed jobCmd.cid 0x30 = some jobCmd ∧ (jobAt n).jobs = [] ∧ (jobAt n).dieLost 2 = false ∧
      (jobAt n).ecc = [] ∧ (jobAt n).memAt 0 (addrAt jobCmd.bytes 32) 192 = some 0) := by decide
/-- Two positions are a ring, one is not. -/
theorem test_col_record : ∀ n ∈ [1, 2],
    let r := { jobRec (jobBytes n) with
      nextFlow := ((jobAt n).engineFlow 160 0 0).getD 262144
      prevFlow := ((jobAt n).engineFlow 160 0 0).getD 262144 }
    jobMalformed (jobBytes n) r = decide (n = 1) ∧ (∀ e ∈ jobExtents r, ((jobAt n).memAt 0 e.1 e.2).isSome = true) ∧
      (jobAt n).jobRefused 0 r = none := by decide
theorem test_col_memory : (jobAt 2).bytes 0 192 = jobBytes 2 := by decide +kernel
/-- A job on context 0 with a chunk waiting, and what it is granted. -/
def jobUp (j : Job) (xs : List (Nat × Arrival)) : State := { net 1 Flow.reset with arrived := xs, jobs := [j] }
theorem test_chunk_leaves : let x : Chunk × Bool × Bool := (bareChunk 0 0 0 (.ag []), false, true)
    let j := { aJob [x] with grant := 1 }
    (jobUp j []).job? (0 : Fin 2) 0 0 = some j ∧ (jobUp j []).flowState j.jrec.nextFlow = 1 ∧
      0 < (j.grant - j.sent).toNat ∧ j.outq.find? (fun (x : Chunk × Bool × Bool) => !x.2.1) = some x ∧
      (aJob [x]).grant = (aJob [x]).sent := by decide
theorem test_credit_leaves : let j := aJob []
    let s := jobUp j []
    s.job? (0 : Fin 2) 0 0 = some j ∧ s.flowState 0 = 1 ∧ s.flowUp 0 = true ∧ j.jrec.prevFlow = 0 ∧
      s.flowRoom 0 (s.creditPacket 0 j) = true := by decide
theorem test_job_completes : let j := { aJob [] with agDone := 2 }
    let s := jobUp j []
    s.job? (0 : Fin 2) 0 0 = some j ∧ j.agDone = j.jrec.nb ∧ j.outq = [] ∧ j.pendingAg = [] ∧
      s.chunksInFlight 0 0 0 = false ∧ s.memAt j.part (j.recAddr + 160) 32 = some 160 ∧ s.ecc = [] := by decide
theorem near_job (j : Job) (xs : List (Nat × Arrival)) (a : Nat) (h : a < 0x8000000000) :
    (jobUp j xs).reach 2 a = .ok := near_net Flow.reset xs [j] 2 a (by decide) h
theorem unheld_job (j : Job) (xs : List (Nat × Arrival)) (a n : Nat) : (jobUp j xs).unheld a n :=
  unheld_ok _ (fun _ h => by cases h) a n
/-- A chunk's packet on context 0. -/
def chunkPkt (c : Chunk) : Packet := pkt 6 c.encode
def chunkAt (c : Chunk) : Nat × Arrival := (0, ⟨chunkPkt c, [], 0, 0, 0, .col, 2, 4⟩)
theorem test_bare_chunks : ∀ b ∈ [ChunkBody.credit, .abort], let c := bareChunk 0 0 1 b
    let s := jobUp (aJob []) [chunkAt c]
    s.flowFor (0 : Fin 2) (chunkPkt c) = some 0 ∧ s.flowState 0 ≠ 3 ∧
      s.nextArrival (0 : Fin 2) (Machine.chunkOf [b.ctype]) = some (chunkAt c) ∧
      s.job? (0 : Fin 2) (chunkKey (chunkPkt c).payload).1 (chunkKey (chunkPkt c).payload).2 = some (aJob []) ∧
      Chunk.decode (chunkPkt c).payload 0 = some c ∧ s.flowPerm 0 4 = true ∧ (aJob []).stopped = false ∧
      s.psnPlace 0 (chunkPkt c).psn = .inside 0 ∧ (net 1 Flow.reset).job? (0 : Fin 2) 0 0 = none ∧ s.aborts = [] := by
  decide
/-- An RS chunk for block 0 with one record, of shard 0 (the job's own) or 1. -/
def rsChunk (shard : Nat) : Chunk :=
  { bareChunk 0 0 0 (.rs [{ freshRec 0 0 with cnt := 1 }]) with shard := shard }
theorem test_gradient (xs : List (Nat × Arrival)) : ∃ ys, (jobUp (aJob []) xs).gradient (aJob []) 0 ys :=
  ⟨_, by decide, by decide, fun i h => near_job _ _ _ (by
    have h1 : (aJob []).jrec.gBase = 0 := by decide
    have h2 : (aJob []).jrec.gSize = 2 := by decide
    rw [h1, h2]; rw [h2] at h; omega), rfl⟩
theorem test_rs : ∀ k ∈ [0, 1], (jobUp (aJob []) [chunkAt (rsChunk k)]).chunkHere 0 [0, 5, 6, 7] (chunkAt (rsChunk k)) 0 0
    (aJob []) (rsChunk k) ∧ ((rsChunk k).shard = (aJob []).jrec.pos ↔ k = 0) :=
  by unfold State.chunkHere; decide
theorem test_rs_owner :
    let r := { freshRec 0 0 with cnt := 1 }
    let q := contribute false (List.replicate 32 (decodeElem 6 0)) r
    let j := aJob []
    q.fail = false ∧ q.nan = false ∧ q.ovf = false ∧ q.cnt.toNat = j.jrec.n ∧ q.csum = BitVec.ofInt 16 q.sums.sum ∧
      (rsChunk 0).round < 4 ∧ j.stopped = false ∧ (∀ e ∈ jobExtents j.jrec, e.1 + e.2 ≤ 0x8000000000) ∧ 0 < j.jrec.nb ∧
      j.jrec.shardAt j.jrec.pos ≤ 0 ∧ 0 < j.jrec.shardAt (j.jrec.pos + 1) := by decide
theorem test_repair : let c := { bareChunk 0 0 0 (.repair [(0, -3)]) with round := 1 }
    (jobUp (aJob []) [chunkAt c]).chunkHere 0 [1] (chunkAt c) 0 0 (aJob []) c := by
  unfold State.chunkHere; decide
/-- An AG chunk whose owner is the successor, and one whose owner is not. -/
theorem test_ag : ∀ k ∈ [0, 1],
    let a : AgRec := ⟨1, 3, 5, false, List.replicate 64 7⟩
    let c := { bareChunk 0 0 0 (.ag [a]) with shard := k, first := 1 }
    (jobUp (aJob []) [chunkAt c]).chunkHere 0 [2] (chunkAt c) 0 0 (aJob []) c ∧ 6 ≤ (aJob []).jrec.pfmt ∧
      0 + 64 * 1 + a.bytes.length ≤ 4096 + (0 + 1) % 2 * 2 + 1 ∧ (((aJob []).jrec.pos + 1) % 2 = c.shard ↔ k = 1) ∧
      (aJob []).jrec.pBase = 0 ∧ (aJob []).jrec.pSize = 64 ∧ (aJob []).jrec.gridBase = 4096 :=
  by unfold State.chunkHere; decide

/-! ### Hosts and register space (O46, O47) -/

theorem test_config : up.mode ≠ .off ∧ up.mode ≠ .tripped ∧ up.dieLost (2 + (0 : Fin 2)) = false ∧
    up.domainLostAt (18 + (0 : Fin 2)) = false ∧ up.ownsParts 0 = true ∧ up.ownsParts 1 = false ∧
    (up.port (0 : Fin 2)).released = true ∧ (up.port (1 : Fin 2)).released = false := by decide
/-- The last 4,096 and 512 bytes of near memory through the window, and one that ends beyond the window. -/
theorem test_bar2 : up.bar2Part (0 : Fin 2) = some 0 ∧ up.bar2Part (1 : Fin 2) = none ∧
    up.bar2Addr 0 0xFFFFFF000 4096 = some 0xFFFFFF000 ∧ up.bar2Addr 0 0xFFFFFF001 4096 = none ∧
    up.bar2Addr 0 0xFFFFFFE00 512 = some 0xFFFFFFE00 ∧
    up.ecc = [] := by decide
theorem test_bar2_unheld (a n : Nat) : up.unheld a n := unheld_ok _ (fun _ h => by cases h) a n
/-- Memory whose stack 0 has lost its clock; the PF reports ERR_NONFATAL, or does not. -/
theorem test_bar2_abort : ∀ en ∈ [false, true],
    let s := { up with domainLost := [4], ports := [(0, ⟨false, true, true, 0xFFFFFFFF, 0, if en then 1 else 0, 0, 0, none⟩)] }
    s.bar2Part (0 : Fin 2) = some 0 ∧ s.bar2Addr 0 0 64 = some 0 ∧ s.reachAll (2 + (0 : Fin 2)) 0 64 ≠ .ok ∧
      s.dieLost (2 + (0 : Fin 2)) = false ∧ (s.port (0 : Fin 2)).aerEn = (if en then 1 else 0) := by decide
theorem test_aer_enable : (1 : BitVec 32).toNat.testBit 0 = true ∧ (0 : BitVec 32).toNat.testBit 0 = false := by decide
theorem near_up (d a : Nat) (hd : d < 4) (ha : a < 0x8000000000) : up.reach d a = .ok :=
  near_ok _ _ _ hd ha (by decide) (by decide) (by decide)
theorem test_bar2_base : up.kernelOff pf 0x600008 = some 0x600008 ∧ 
    (2 ^ 36) % 2 ^ 52 % 2 ^ up.bar2Log2 (up.portOf (0x600008 / 0x10000000)) = 0 ∧
    (2 ^ 36 + 1) % 2 ^ 52 % 2 ^ up.bar2Log2 (up.portOf (0x600008 / 0x10000000)) ≠ 0 := by decide
theorem test_function_reset : up.portServes (0 : Fin 2) = true ∧ up.ownsParts (0 : Fin 2) = true ∧ up.cmds = [] := by decide
theorem test_counters : up.counterPath pf = some (0, true) ∧ up.counterPath (.bar0 0 31) = some (0, false) ∧
    up.kernelPath pf = some 0 ∧ up.physCtr 0 (65535 : Fin 65536) = some 65535 ∧ up.dieLost (ctrDie 65535) = false ∧
    up.kernelPath (.bar0 1 0) = none ∧ up.vfPath (.bar0 1 0) = none ∧ up.portServes (1 : Fin 2) = false := by decide
/-- Offsets beside the windows that other rows serve, which hold no register. -/
theorem test_no_register : ∀ off ∈ [0x1FFFFFC, 0x8FFFC, 0x90800, 0x3FFFFFC + 4], up.physOff 0 off = some off ∧
    ¬ (0x2000000 ≤ off ∧ off < 0x2800000) ∧ ¬ (0x90000 ≤ off ∧ off < 0x90800) ∧ regsIn off 4 = [] := by decide

/-! ### Queues (O48 to O50) -/

/-- Queue 0 with its configuration, status and tail. -/
def queueAt (cfg st tail : Nat) : State :=
  { up with regs := [(queueReg 0 0, BitVec.ofNat 64 cfg), (queueReg 0 0x20, BitVec.ofNat 64 st),
    (queueReg 0 0x10, BitVec.ofNat 64 tail)] }
/-- A fetched command of queue 0 for an engine. -/
def cmd (engine n : Nat) (ph : CmdPhase) : Cmd :=
  { cid := 9, origin := .queue 0 1, engine := engine, kernel := true, part := 0, bytes := natLe 64 n, phase := ph
    stalled := false, abortReq := false }
/-- One whose operands reach past byte 31. -/
def wideCmd (engine lo hi : Nat) : Cmd := { cmd engine 0 .passed with bytes := natLe 32 lo ++ natLe 32 hi }
/-- A queue that may be created, with the smallest size, and one without a size. -/
theorem test_queue_create : (queueAt 0x4000 0 0).kernelPath pf = some 0 ∧ (queueAt 0x4000 0 0).physQueue 0 (0 : Fin 4096) = some 0 ∧
    (queueAt 0x4000 0 0).dieLost (queueDie 0) = false ∧ (queueAt 0x4000 0 0).mayCreate 0 0 = true ∧
    (queueAt 0 0 0).mayCreate 0 0 = false := by decide
theorem test_queue_destroy : (queueAt 0x4000 1 0).queueState 0 = 1 ∧
    (∀ ph ∈ [CmdPhase.waiting, .passed], let s := { queueAt 0x4000 1 0 with cmds := [cmd 0 0 ph] }
      (s.cmds.map (fun (c : Cmd) => c.cid)).Nodup ∧ s.queueCmds 0 = [cmd 0 0 ph] ∧ (cmd 0 0 ph).phase = ph) ∧
    (queueAt 0x4000 2 0).queueState (0 : Fin 4096) = 2 ∧ (queueAt 0x4000 2 0).queueCmds (0 : Fin 4096) = [] ∧
    ({ queueAt 0x4000 2 0 with cmds := [cmd 0 0 .passed] }).queueCmds (0 : Fin 4096) ≠ [] := by decide
/-- A doorbell that fills the ring of two entries, and one that would overfill it. -/
theorem test_doorbell : let s := queueAt 0x4000 1 0
    s.doorbell pf (0 : Fin 4096) = some 0 ∧ s.queueState 0 = 1 ∧ 2 ^ field (s.reg (queueReg 0 0)) 18 14 = 2 ∧
      (2 + 65536 - (s.reg (queueReg 0 0x14)).toNat) % 65536 = 2 ∧ 2 < (3 + 65536 - (s.reg (queueReg 0 0x14)).toNat) % 65536 ∧
      (queueAt 0x4000 3 0).queueState 0 ≠ 1 := by decide
/-- The entry lies in near memory or with the host; it is a NOP or one of a reserved opcode. -/
theorem test_queue_fetch : (∀ cfg ∈ [0x4100, 0x84100], let s := queueAt cfg 1 1
      s.mode = .running ∧ s.queueEngine (0 : Fin 4096) = some 0 ∧ s.turnOf 0 = some (0 : Fin 4096).val ∧ s.ecc = [] ∧
        s.contained = false ∧ s.pathLost (queueDie 0) (engineDie 0) = false ∧ s.retired 0 = false) ∧
    (let s := queueAt 0x84100 1 1
     flag (s.reg (queueReg 0 0)) 19 = true ∧ s.hostReach (s.portOf (s.queuePart 0)) (field (s.reg (queueReg 0 0)) 13 9) = true) ∧
    (let s := queueAt 0x4100 1 1
     flag (s.reg (queueReg 0 0)) 19 = false ∧ s.memAt 0 (field (s.reg (queueReg 0 8)) 51 6 * 64 + 64 * (0 % 2)) 64 = some 0) := by
  decide
/-- A queue with nothing posted has no turn. -/
theorem test_queue_turn : (queueAt 0x4100 1 0).queueEngine (0 : Fin 4096) = some 0 ∧
    (queueAt 0x4100 1 0).turnOf 0 ≠ some (0 : Fin 4096).val := by decide
theorem test_queue_check : (queueAt 0x4100 1 1).cmdCheck 0 0 true (natLe 64 0) = none ∧
    (queueAt 0x4100 1 1).cmdCheck 0 0 true (natLe 64 1) = some .format ∧ (natLe 64 0).length = 64 := by decide
theorem test_queue_reach (a : Nat) (h : a < 0x8000000000) : (queueAt 0x4100 1 1).reach 2 a = .ok :=
  near_ok _ _ _ (by decide) h (by decide) (by decide) (by decide)
/-- A NOP that waits for counter 65,535 to reach 1. -/
def waiter : Cmd := cmd 0 (2 ^ 8 + 65535 * 2 ^ 16 + 2 ^ 64) .waiting
theorem test_nop : (withCmd (cmd 0 0 .passed) up).passed 9 0x00 = some (cmd 0 0 .passed) := by decide
/-- The counter at its value and one below it; a limit of one cycle and none. -/
theorem test_wait : ∀ v ∈ [(0 : Nat), 1],
    let s := { up with cmds := [waiter], regs := [(ctrReg 65535, BitVec.ofNat 64 v), (queueReg 0 0x40, BitVec.ofNat 64 v)] }
    s.headCmd (0 : Fin 4096) = some waiter ∧ waitEn waiter.bytes = true ∧
      s.physCtr waiter.part (waitCtr waiter.bytes) = some 65535 ∧ s.pathLost (queueDie 0) (ctrDie 65535) = false ∧
      (waitVal waiter.bytes ≤ (s.ctr 65535).toNat ↔ v = 1) ∧ s.heldNodes (0 : Fin 4096) = [] ∧ waiter.stalled = false ∧
      (0 < (s.reg (queueReg 0 0x40)).toNat ↔ v = 1) ∧ waiter.origin = .queue (0 : Fin 4096) 1 := by decide
/-- Commands that end OK, without a signal and with one, and one that ends in a fault. -/
theorem test_command_complete : ∀ n ∈ [0, 2 ^ 9 + 65535 * 2 ^ 32 + 2 ^ 128], ∀ st ∈ [Status.ok, .bounds],
    let c := cmd 0 n (.done st)
    let s := withCmd c up
    s.cmd? 9 = some c ∧ c.origin = .queue (0 : Fin 4096) 1 ∧ c.abortReq = false ∧
      (s.reg (queueReg 0 0x18)).toNat + 1 = 1 ∧ (s.queue 0).ahead = [] ∧ (st.isFault = true ↔ st = .bounds) ∧
      (sigEn c.bytes = true ↔ n ≠ 0) ∧ (n ≠ 0 → s.physCtr c.part (sigCtr c.bytes) = some 65535) ∧
      s.dieLost (ctrDie 65535) = false := by decide
/-- A command that a QDESTROY has aborted. -/
theorem test_command_destroyed : let c := { cmd 0 0 (.done .aborted) with abortReq := true }
    (withCmd c up).cmd? 9 = some c ∧ c.origin = .queue (0 : Fin 4096) 1 ∧ c.phase = .done .aborted := by decide

/-! ### Commands of the engines (O51, O52) -/

theorem test_ctr_set : let c := cmd 0 (0xC0 + 65535 * 2 ^ 192) .passed
    (withCmd c up).passed 9 0xC0 = some c ∧ (withCmd c up).physCtr c.part (bytesN c.bytes 25 24) = some 65535 := by decide
theorem test_reg_write : let c := cmd 0 (0xC1 + 0x1001C * 2 ^ 224 + 7 * 2 ^ 256) .passed
    (withCmd c up).passed 9 0xC1 = some c ∧ bitN (byteAt c.bytes 24) 0 = false ∧ c.bytes.length = 64 ∧
      bytesN c.bytes 31 28 = 0x1001C := by decide
/-- PROD that fills the ring, and PROD that CONS has reached. -/
theorem test_mv_post : ∀ n ∈ [0, 2], let c := cmd 128 (0x20 + n * 2 ^ 208) .passed
    let s := withCmd c up
    s.passed 9 0x20 = some c ∧ s.dieLost (engineDie c.engine) = false ∧
      (BitVec.ofNat 16 (countArg c.bytes) - s.cons c.chan).toNat ≤ s.ringLen c.chan ∧ s.halted c.chan = false ∧
      (s.cons c.chan = BitVec.ofNat 16 (countArg c.bytes) ↔ n = 0) := by decide
theorem test_mv_host : ∀ dir ∈ [0, 8], let c := wideCmd 128 (0x21 + dir * 2 ^ 192) (64 * 2 ^ 128)
    let s := withCmd c up
    s.passed 9 0x21 = some c ∧ s.dieLost (engineDie c.engine) = false ∧ s.stopped c.chan = false ∧
      (s.chan c.chan).flight.length < 8 ∧ s.hostReach (s.portOf c.part) (s.cmdFunc c) = true ∧
      bytesN c.bytes 52 48 = (List.replicate 64 (7 : Byte)).length ∧
      c.engine < 160 ∧ (withCmd c (up.setReg (moverReg 0 0) 1)).stopped c.chan = true := by decide
/-- A transfer of no bytes, a full channel, and a function without Bus Master Enable. -/
theorem test_mv_host_waits :
    (let c := wideCmd 128 0x21 0
     (withCmd c up).passed 9 0x21 = some c ∧ bytesN c.bytes 52 48 = 0) ∧
    (let c := wideCmd 128 0x21 (64 * 2 ^ 128)
     let full := withCmd c (up.setChan c.chan { Chan.reset with flight := List.replicate 8 (linear (.ring 0) 0 0 0 64 .moving) })
     let off := withCmd c { up with ports := [(0, ⟨false, true, true, 0, 0, 0, 0, 0, none⟩)] }
     full.passed 9 0x21 = some c ∧ 8 ≤ (full.chan c.chan).flight.length ∧ 0 < bytesN c.bytes 52 48 ∧
       off.passed 9 0x21 = some c ∧ off.stopped c.chan = false ∧ (off.chan c.chan).flight.length < 8 ∧
       off.hostReach (off.portOf c.part) (off.cmdFunc c) = false) := by decide
/-- An ATOMIC of eight bytes, with and without FETCH, and a SEND of 4,096, on an OPEN flow and on one that is FREE. -/
theorem test_net : (∀ f ∈ [4, 12], ∀ st ∈ [0, 1],
      let c := wideCmd 160 (0x31 + f * 2 ^ 192 + 8 * 2 ^ 208) (0x8000000000000 * 2 ^ 64)
      let s := withCmd c (net st Flow.reset)
      s.passed 9 0x31 = some c ∧ s.dieLost (engineDie c.engine) = false ∧
        (aperture (addrAt c.bytes 40)).bind (s.engineFlow c.engine c.part) = some 0 ∧
        s.memAt c.part (addrAt c.bytes 48) 8 = some 0 ∧ s.memAt c.part (addrAt c.bytes 32) 8 = some 0 ∧
        countArg c.bytes % 8192 = 8 ∧ s.flowState 0 = st ∧ s.ecc = []) ∧
    (∀ st ∈ [0, 1], let c := cmd 160 (0x32 + 4096 * 2 ^ 208) .passed
      let s := withCmd c (net st Flow.reset)
      s.passed 9 0x32 = some c ∧ s.engineFlow c.engine c.part (bytesN c.bytes 43 40 % 2 ^ 18) = some 0 ∧
        s.memAt c.part (addrAt c.bytes 32) 4096 = some 0 ∧ s.flowState 0 = st) := by decide
theorem test_net_reach (c : Cmd) (a : Nat) (h : a < 0x8000000000) :
    (withCmd c (net 1 Flow.reset)).reach (engineSrc 160).die a = .ok := near_net Flow.reset [] [] 2 a (by decide) h

/-! ### Stored graphs (O53, O54) -/

/-- A management command for graph 0. -/
def graphCmd (opc n : Nat) (kernel : Bool) : Cmd := { cmd 162 (opc + n * 2 ^ 208) .passed with kernel := kernel }
/-- A node of tile 0 with a NOP, its predecessors and successors. -/
def node (npred : Nat) (succ : List Nat) (wait : Nat) : Node := ⟨natLe 64 (wait * 256), 0, npred, succ, 0⟩
def version (pending : Bool) (nodes : List Node) : Version := ⟨0, 1, pending, !pending, 0, nodes⟩
def graphState (c : Cmd) (vs : List Version) : State := { up with cmds := [c], versions := vs, nextCid := 10 }
theorem test_graph_managed : ∀ opc ∈ [0x40, 0x41, 0x42, 0x43, 0x44],
    (graphState (graphCmd opc 1 true) []).managed 9 opc (graphCmd opc 1 true) 0 := by
  unfold State.managed; decide
/-- A table of one record of zeros in memory at 0: a NOP of tile 0 without edges; a record whose reserved bit is set. -/
theorem test_graph_table : State.recordsAt { graphState (graphCmd 0x40 1 true) [] with mem := [(71, 0)] }
    (graphCmd 0x40 1 true) [({ up with mem := [(71, 0)] }).bytes 0 128] := by
  have hc : countArg (graphCmd 0x40 1 true).bytes = 1 := by decide
  have ha : addrAt (graphCmd 0x40 1 true).bytes 32 = 0 := by decide
  unfold State.recordsAt
  rw [hc, ha]
  refine ⟨0, ?_, by decide, rfl, fun k h => near_up _ _ (by decide) (by omega), rfl⟩
  decide
theorem test_graph_define : (∀ b ∈ [(0 : Byte), 1],
    let recs := [({ up with mem := [(71, b)] }).bytes 0 128]
    let nodes := recs.zipIdx.map fun (r, i) => nodeOf r i
    (!recs.any nodeReserved && nodes.all (fun n => up.nodeCmdOk 0 true n.target n.bytes) && edgesOk nodes) =
      decide (b = 0) ∧ nodes.length ≤ up.freeNodes (graphDie 0)) := by decide +kernel
theorem test_graph_patch : let vs := [version true [node 0 [] 0]]
    let s := graphState (graphCmd 0x41 1 true) vs
    let r := up.bytes 0 128
    firstSome (s.pending? 0) (s.current? 0) = some (version true [node 0 [] 0]) ∧
      [node 0 [] 0][bytesN r 15 0]? = some (node 0 [] 0) ∧ bytesN r 63 16 = 0 ∧
      s.nodeCmdOk 0 (s.graphKernel 0) 0 ((r.drop 64).take 64) = true ∧ 1 ≤ s.freeNodes (graphDie 0) := by decide
theorem test_graph_commit : let v := version true [node 0 [] 0]
    (graphState (graphCmd 0x42 0 true) []).pending? 0 = none ∧ (graphState (graphCmd 0x42 0 true) [v]).pending? 0 = some v ∧
    ((graphState (graphCmd 0x42 0 true) [v]).versions.filter fun w => w.graph == 0 && !w.pending && decide (0 < w.launches)).length
      < 8 ∧ ∀ w ∈ [v], w.pending = true → w.current = false := by decide
/-- A graph that the kernel owns, and a user's command of function 0 on a graph of function 1. -/
theorem test_graph_private : let s := { graphState (graphCmd 0x44 0 false) [version false []] with
      regs := [(graphReg 0, 0x80)] }
    let c := graphCmd 0x44 0 false
    s.dieLost (engineDie c.engine) = false ∧ s.physGraph c.engine c.part (graphArg c.bytes) = some 0 ∧ c.kernel = false ∧
      s.graphOwned 0 = true ∧ s.graphFunc 0 ≠ s.cmdFunc c ∧ s.passed 9 0x44 = some c := by decide
theorem test_graph_launch : ∀ nodes ∈ [[], [node 0 [] 0]],
    let s := graphState (graphCmd 0x43 0 true) [version false nodes]
    s.current? 0 = some (version false nodes) ∧ (s.dieLaunches (graphDie 0)).length < 256 ∧
      nodes.length ≤ s.freePend (graphDie 0) ∧ s.glaunch? 9 = none ∧ waitEn (node 0 [] 0).bytes = false ∧
      s.physEngine (s.graphPart 0) 0 = some 0 ∧ s.contained = false ∧ s.pathLost (engineDie 162) (engineDie 0) = false ∧
      (∀ d ∈ s.cmds, d.isNode = false ∧ d.cid < s.nextCid) ∧
      (graphState (graphCmd 0x43 0 true) []).current? 0 = none := by decide
/-- A launch of a node, its successor and a third node, the first of which has completed with a status. -/
def launched (st : Status) (ph : List NodePhase) : State :=
  let v := version false [node 0 [1] 0, node 1 [] 1, node 0 [] 0]
  { graphState { cmd 0 0 (.done st) with origin := .node 5 0 } [v] with
    glaunches := [⟨5, 7, 162, v, [0, 1, 0], ph, true, 0⟩] }
theorem test_node_complete : ∀ st ∈ [Status.ok, .bounds], ∀ ph ∈ [[NodePhase.posted, .unreleased, .posted],
      [.posted, .done .ok, .done .ok]],
    let s := launched st ph
    let c := { cmd 0 0 (.done st) with origin := .node 5 0 }
    let g : GLaunch := ⟨5, 7, 162, version false [node 0 [1] 0, node 1 [] 1, node 0 [] 0], [0, 1, 0], ph, true, 0⟩
    s.cmd? 9 = some c ∧ s.glaunch? 5 = some g ∧ g.version.nodes[0]? = some (node 0 [1] 0) ∧
      g.phase.length = g.version.nodes.length ∧ g.rem.length = g.version.nodes.length ∧ (st.signals = true ↔ st = .ok) ∧
      g.rem[1]? = some 1 ∧ (ph[1]? = some .unreleased ∨ ∃ y, ph[1]? = some (.done y)) ∧ g.version.nodes[1]? = some (node 1 [] 1) ∧
      waitEn (node 1 [] 1).bytes = true ∧ s.physEngine (s.graphPart 0) 0 = some 0 := by
  simp only [List.mem_cons, List.not_mem_nil, or_false, forall_eq_or_imp, forall_eq]
  refine ⟨⟨?_, ?_⟩, ?_, ?_⟩ <;> exact ⟨by decide, by decide, by decide, by decide, by decide, by decide, by decide,
    by first | exact .inl rfl | exact .inr ⟨_, rfl⟩, by decide, by decide, by decide⟩

/-! ### Mailboxes and the secure monitor (O55, O56) -/

/-- A channel full or empty, in one direction. -/
def mailIn (dir ch : Nat) (full : Bool) : State := up.setMail dir 0 ch ⟨0, full, false, false, 0⟩
/-- A full and an empty channel each way; port 1, which is not released. -/
theorem test_mail : ∀ dir ∈ [0, 1], ∀ ch ∈ [0, 7, 8, 15], ∀ full ∈ [true, false], let s := mailIn dir ch full
    s.bar4Serves (0 : Fin 2) = true ∧ (s.mail dir (0 : Fin 2) ch).isFull = full ∧ s.d2hHeld = [] ∧
      (s.mboxReg (0 : Fin 2) 0).toNat.testBit ch = false ∧ s.bar4Serves (1 : Fin 2) = false := by decide
/-- A secure message of port 0 on channel 8: a command with its ARG, and bytes that stand in memory. -/
def secured (c arg : Nat) (m : Table Byte) : State :=
  { up with mem := m, secure := [(0, 8)], mbox := [(8, ⟨BitVec.ofNat 32 (c * 2 ^ 24 + arg), true, false, false, 0⟩)] }
theorem test_secure_front : ∀ c ∈ [0x01, 0x02, 0x03, 0x10, 0x11, 0x12, 0x13], (secured c 0 []).secureFront 0 8 c 0 := by
  unfold State.secureFront; decide
theorem test_secure_erase : (secured 0x14 122 []).secureFront 0 8 0x14 122 := by unfold State.secureFront; decide
/-- What the buffer of ARG 0 holds from an offset on lies in near memory. -/
theorem buffered (c : Nat) (m : Table Byte) (off n : Nat) (h : up.memAt 0 off n = some off)
    (hn : off + n ≤ 0x8000000000) : (secured c 0 m).bufferAt 0 0 off n off := by
  refine ⟨?_, hn, fun k hk => ?_⟩
  · have e : 4096 * 0 + off = off := by omega
    rw [e, show (secured c 0 m).portPart (0 : Fin 2) = 0 from show up.portPart 0 = 0 by decide]
    unfold State.memAt at h ⊢
    rw [show (secured c 0 m).physAddr 0 off = up.physAddr 0 off from rfl]
    exact h
  · change up.reach 2 (off + k) = .ok
    exact near_ok _ _ _ (by decide) (by omega) (by decide) (by decide) (by decide)
theorem unheld_secured (c arg : Nat) (m : Table Byte) (a n : Nat) : (secured c arg m).unheld a n :=
  unheld_ok _ (fun _ h => by cases h) a n
/-- The header of an image without a body: MAGIC, TYPE and KEY_ID. -/
def header (ty key : Byte) : List Byte := [0x59, 0x4B, 0x53, 0x49, ty, key]
/-- The same at an address of memory. -/
def headerAt (a : Nat) (ty key : Byte) : Table Byte := (header ty key).zipIdx.filterMap fun (b, i) =>
  if b = 0 then none else some (a + i, b)
/-- A firmware image in the buffer, one of an older SVN than the minimum, and one whose reserved key fails it. -/
theorem test_fw_update : ∀ key ∈ [(0 : Byte), 4], let s := secured 0x01 0 (headerAt 0 1 key)
    imgShape (s.bytes 0 64) 1 fwSlot = true ∧ imgTotal (s.bytes 0 64) = 2884 ∧ imgSvn (s.bytes 0 2884) = 0 ∧
      s.flash.fwSvnMin = 0 := by decide +kernel
theorem test_fw_unsealed : imgSealed ((secured 0x01 0 (headerAt 0 1 4)).bytes 0 2884) = false := by decide +kernel
theorem test_fw_sealed (h : ∀ k a b, Config.signatureGood k a b = true) :
    imgSealed ((secured 0x01 0 (headerAt 0 1 0)).bytes 0 2884) = true := by
  unfold imgSealed
  rw [h, Bool.and_true]
  decide +kernel
theorem test_fw_buffer (m : Table Byte) : (secured 0x01 0 m).bufferAt 0 0 0 64 0 ∧ (secured 0x01 0 m).bufferAt 0 0 0 2884 0 :=
  ⟨buffered _ _ _ _ (by decide) (by decide), buffered _ _ _ _ (by decide) (by decide)⟩
theorem test_attest (m : Table Byte) : (secured 0x02 0 m).bufferAt 0 0 0 32 0 ∧ (secured 0x02 0 m).bufferAt 0 0 64 10405 64 ∧
    (secured 0x02 0 m).flash.sigIndex < 2 ^ 40 :=
  ⟨buffered _ _ _ _ (by decide) (by decide), buffered _ _ _ _ (by decide) (by decide), show 0 < 2 ^ 40 by decide⟩
theorem length_sized (n : Nat) (bs : List Byte) : (sized n bs).length = n := by simp [sized]
theorem length_natLe (n v : Nat) : (natLe n v).length = n := by
  induction n generalizing v with
  | zero => rfl
  | succ n ih => simp [natLe, ih]
theorem certificate_length : certificate.length = 2900 := by simp [certificate, length_sized, length_natLe]
theorem test_cert (m : Table Byte) : (secured 0x03 0 m).bufferAt 0 0 64 certificate.length 64 := by
  rw [certificate_length]
  exact buffered _ _ _ _ (by decide) (by decide)
/-- A recovery command in recovery mode: loads that end at the slot's end and beyond it, and a commit. -/
theorem test_recovery : ∀ off ∈ [fwSlot - 64, fwSlot], ∀ opc ∈ [0xE0, 0xE1],
    let c := wideCmd 200 opc (off * 2 ^ 64 + 64 * 2 ^ 96)
    let s := { up with mode := .recovery, cmds := [c] }
    s.recoveryCmd 9 opc = some c ∧ bytesN c.bytes 43 40 = off ∧ bytesN c.bytes 47 44 = 64 ∧
      (off + 64 ≤ fwSlot ↔ off = fwSlot - 64) ∧ s.hostReach 0 (s.cmdFunc c) = true ∧ (s.port 0).released = true ∧
      (List.replicate 64 (1 : Byte)).length = 64 ∧
      ({ s with ports := [(0, ⟨false, true, true, 0, 0, 0, 0, 0, none⟩)] }).hostReach 0 (s.cmdFunc c) = false := by decide
/-- A sketch image of the smallest form, and one of the wrong TYPE. -/
theorem test_sketch_region (h : ∀ k a b, Config.signatureGood k a b = true) :
    imgOk (header 2 0 ++ List.replicate 2878 0) 2 sketchRegion = true := by
  unfold imgOk imgSealed
  rw [h, Bool.and_true]
  decide +kernel
theorem test_sketch_bad : imgOk (header 1 0 ++ List.replicate 2878 0) 2 sketchRegion = false ∧ up.mode ≠ .off ∧
    up.flash.sketchSvnMin ≤ imgSvn (header 2 0 ++ List.replicate 2878 0) := by decide +kernel

/-! ### Start-up and resets (O57, O58) -/

theorem test_clean_start : cleanStart goodStart ∧ State.reset.mode = .off ∧ sketchOk State.reset.flash.sketch = true ∧
    (State.reset.flash.fwValid && goodStart.fwGood) = true ∧ goodStart.sketchGood = true ∧
    sketchOk { Sketch.unchanged with format := 2 } = false ∧ up.resetDue = none ∧
    (State.reset.flash.fwValid && { goodStart with fwGood := false }.fwGood) = false := by
  refine ⟨⟨by decide, rfl, rfl, rfl, rfl, rfl, rfl⟩, ?_⟩
  decide
theorem test_bad_firmware : cleanStart { goodStart with fwGood := false } := ⟨by decide, rfl, rfl, rfl, rfl, rfl, rfl⟩
/-- Whole and Split mode: the partitions' paths; the other partition has asked for the reset or has not. -/
theorem test_full : up.resetBy pf = some 0 ∧ up.split = false ∧ up.resetBy (.bar0 1 0) = none ∧
    ∀ req ∈ [0, 0x400], let s := { up with regs := [(8, 2), (0x4C, BitVec.ofNat 64 req)] }
      s.resetBy pf = some 0 ∧ s.mode = .running ∧ s.split = true ∧ s.resetDue = none ∧
        (flag (s.reg 0x4C) 10 = true ↔ req ≠ 0) ∧ ∀ q, q < 2 → s.partAlive q = true := by decide
theorem test_restarts : up.powered = true ∧ State.reset.powered = false ∧ up.watchdog = false ∧
    (let s := { up with watchdog := true, regs := [(0x30030, 1)] }
     s.powered = true ∧ flag (s.reg 0x30030) 0 = true ∧ s.dieLost 2 = false ∧ s.dieLost 3 = false ∧ s.resetDue = none) ∧
    ({ up with mode := .tripped }).alwaysOn = true := by decide
/-- A port that may be released, one whose PERST# is asserted, one in a module without power. -/
theorem test_port_release : ∀ p : Fin 2, up.mayRelease p = true ∧ State.reset.mayRelease p = false ∧
    (up.setPort p { HostPort.reset with perst := true }).mayRelease p = true ∧
    ((up.setPort 1 { HostPort.reset with perst := false }).port 1).released = false ∧
    ((up.setPort p { HostPort.reset with linkUp := true }).port p).linkUp = true ∧ (State.reset.port p).linkUp = false := by
  decide
theorem test_die_go : up.resetPath pf = true ∧ up.split = false ∧ (∀ d ∈ [Die.cd0, .cd1, .nd0, .nd1],
    up.dieLost (dieNum d) = false) ∧ up.resetPath (.bar0 1 0) = false ∧ up.resetPath (.bar4 0) = false := by decide

/-! ### Proof packs, tests and retirement (O59, O60) -/

/-- A pack for slot 122, after the 64 bytes that name the slot; its seal is as in the firmware's test. -/
theorem test_pp_store : let s := secured 0x10 0 ((0, 122) :: headerAt 64 3 4)
    byteAt (s.bytes 0 64) 0 = 122 ∧ imgShape (s.bytes 64 64) 3 packSlot = true ∧ imgTotal (s.bytes 64 64) = 2884 ∧
      s.slotBusy 122 = false ∧ imgSealed (s.bytes 64 2884) = false := by decide +kernel
theorem test_pp_sealed (h : ∀ k a b, Config.signatureGood k a b = true) :
    imgSealed ((secured 0x10 0 ((0, 122) :: headerAt 64 3 0)).bytes 64 2884) = true := by
  unfold imgSealed
  rw [h, Bool.and_true]
  decide +kernel
theorem test_pp_buffer (c : Nat) (m : Table Byte) : (secured c 0 m).bufferAt 0 0 0 64 0 ∧
    (secured c 0 m).bufferAt 0 0 64 64 64 ∧ (secured c 0 m).bufferAt 0 0 64 2884 64 ∧ (secured c 0 m).bufferAt 0 0 0 32 0 :=
  ⟨buffered _ _ _ _ (by decide) (by decide), buffered _ _ _ _ (by decide) (by decide),
    buffered _ _ _ _ (by decide) (by decide), buffered _ _ _ _ (by decide) (by decide)⟩
theorem packList_length (s : State) : s.packList.length = 7888 := by
  unfold State.packList maskBytes
  rw [List.length_append, length_natLe, List.length_flatten, List.map_map]
  simp only [Function.comp_def, length_sized]
  decide +kernel
theorem test_pp_list (m : Table Byte) : (secured 0x13 0 m).bufferAt 0 0 64 (secured 0x13 0 m).packList.length 64 := by
  rw [packList_length]
  exact buffered _ _ _ _ (by decide) (by decide)
/-- A pack of a kind. -/
def pack (kind : Nat) (key : Byte) : PackSlot := ⟨kind, 7, header 3 key ++ List.replicate 2878 0⟩
def packed (s : State) (x : PackSlot) : State := s.setPack 122 (some x)
theorem test_pp_erase : ((secured 0x14 122 []).packSlot? 122 = none) ∧ (secured 0x14 122 []).slotBusy 122 = false ∧
    ((packed (secured 0x14 122 []) (pack 0 0)).packSlot? 122).isSome = true := by decide
/-- A run on tiles 0 and 127 in service, and a memory test on stacks 0 and 7 of a halted module. -/
theorem test_pp_run : ∀ k ∈ [0, 1], let s := { packed (secured 0x11 0 [(0, 122), (16, if k = 0 then 1 else 0x81),
        (31, if k = 0 then 0x80 else 0)]) (pack k 4) with mode := if k = 0 then .running else .halted }
    let h := s.bytes 0 32
    let ts := (List.range 128).filter fun t => bitN (bytesN h 31 16) t
    ts = [0, if k = 0 then 127 else 7] ∧ byteAt h 0 = 122 ∧ s.ppRun = none ∧ flag (s.reg 0xA0010) 0 = false ∧
      s.packSlot? 122 = some (pack k 4) ∧ imgShape (pack k 4).image 3 packSlot = true ∧ (pack k 4).kind ≤ 3 ∧
      ((pack k 4).kind = 0 ↔ s.mode = .running) ∧ (∀ t ∈ ts, s.targetIn (pack k 4).kind (s.portPart 0) t = true) ∧
      imgSealed (pack k 4).image = false := by decide +kernel
theorem test_pack_sealed (h : ∀ k a b, Config.signatureGood k a b = true) : imgSealed (pack 0 0).image = true := by
  unfold imgSealed
  rw [h, Bool.and_true]
  decide +kernel
/-- A run on eight tiles and one more. -/
def scan (ready : List Nat) (ends : Option Status) : PpRunSt :=
  { port := 0, buffer := 0, slot := 122, kind := 0, retireOnFail := true, clearOnPass := false, repairOk := false
    targets := [0, 1, 2, 3, 4, 5, 6, 7, 127], ready := ready, tested := [], failed := [], skipped := [], retiredNow := []
    cleared := [], repaired := [], ends := ends }
theorem test_pp_target : (127 : TileId).val ∈ (scan [] none).targets ∧ (127 : TileId).val ∉ (scan [] none).ready ∧
    (127 : TileId).val ∉ (scan [] none).skipped ∧ ({ up with ppRun := some (scan [] none) }).targetReady (127 : TileId) = true ∧
    ({ up.setTile 127 { Tile.reset with launches := [9] } with ppRun := some (scan [] none) }).targetReady (127 : TileId) = false := by
  decide
/-- A group of eight with the ninth left, the same run ended, and a group one of which fails. -/
theorem test_pp_group : let r := scan [0, 1, 2, 3, 4, 5, 6, 7, 127] none
    let group := (r.targets.filter fun t => r.ready.contains t && !r.tested.contains t).take 8
    group = [0, 1, 2, 3, 4, 5, 6, 7] ∧ (∃ y ∈ r.targets, y ∉ r.tested ∧ y ∉ r.skipped ∧ y ∉ group) ∧
      (scan [] (some .aborted)).ends = some .aborted ∧ r.kind = 0 ∧ r.retireOnFail = true ∧
      (0xFE : BitVec 128).toNat.testBit 0 = false := by decide
theorem test_retire : up.kernelOff pf (tileBase (127 : TileId) + 0x400C) = some (tileBase 127 + 0x400C) ∧
    (let s := up.setTile 127 { Tile.reset with retireReq := true }
     (s.tile (127 : TileId)).retireReq = true ∧ s.retired (127 : TileId) = false ∧ (s.tile (127 : TileId)).quiet = true ∧
       s.tileOn (127 : TileId) = true) := by decide +kernel

end Sys2Proof.Machine
end

section
/-! SUPPORT. What well-formed commands and hosts' writes of registers do, with the statements O8 and O47. -/
namespace Sys2Proof.Machine

/-! ### Well-formed commands (R12, log 3) -/

/-- A meaning that stops on operands no interface can carry goes on with all others (log 3). -/
theorem next_of_wf {c : Instr} (h : c.wf = true) (f : Fault) (t : State) :
    (if !c.wf then .fault f else .next t : Host.Outcome State Fault Refusal) = .next t := by
  rw [h]
  rfl

/-- Settles O8: eleven commands check their operands, which are good here; the meanings of all others answer a next
state on every path. -/
theorem wellFormedCommandsComplete : Obligations.WellFormedCommandsComplete := by
  intro s c h
  cases c with
  | imemHostWrite | hbmSectorAccess | cxlCompletion | arbiterGrant | creditReturn | nativeFrameReceive
  | ethernetFrameReceive | bar2Read | bar2Write | coldStart | fullReset => exact ⟨_, next_of_wf h _ _⟩
  | _ => exact ⟨_, rfl⟩

/-! ### Bits of a masked write (R6) -/

/-- Bit n of a register written under a mask. -/
theorem flag_maskIn (old v : Word) (mask n : Nat) :
    flag (maskIn old v mask) n = if mask.testBit n then flag v n else flag old n := by
  simp only [flag_eq_getLsbD, maskIn, BitVec.getLsbD_or, BitVec.getLsbD_and, BitVec.getLsbD_not, BitVec.getLsbD_ofNat]
  by_cases hn : n < 64
  · cases mask.testBit n <;> simp [hn]
  · simp [hn, BitVec.getLsbD_of_ge _ n (Nat.le_of_not_lt hn)]

theorem word_ext_flag {u v : Word} (h : ∀ n, n < 64 → flag u n = flag v n) : u = v :=
  BitVec.eq_of_getLsbD_eq fun n hn => by simpa only [flag_eq_getLsbD] using h n hn

@[simp] theorem maskIn_zero (old v : Word) : maskIn old v 0 = old :=
  word_ext_flag fun n _ => by simp [flag_maskIn]

theorem maskIn_all (old v : Word) : maskIn old v (2 ^ 64 - 1) = v :=
  word_ext_flag fun n hn => by rw [flag_maskIn, Nat.testBit_two_pow_sub_one, decide_eq_true hn, if_pos rfl]

/-! ### The value and mask that a host's bytes give a register -/

theorem natLe_getD (n v i : Nat) (h : i < n) : (natLe n v).getD i 0 = BitVec.ofNat 8 (v >>> (8 * i)) := by
  induction n generalizing v i with
  | zero => omega
  | succ n ih =>
    cases i with
    | zero => rfl
    | succ i =>
      have e : v / 256 = v >>> 8 := by rw [Nat.shiftRight_eq_div_pow]
      rw [natLe, List.getD_cons_succ, ih _ _ (by omega), e, ← Nat.shiftRight_add, Nat.mul_add, Nat.add_comm 8]

/-- One byte of a number joined to those below it. -/
theorem ofNat_mod_or_byte (v i : Nat) :
    BitVec.ofNat 64 (v % 2 ^ (8 * i)) ||| (BitVec.ofNat 8 (v >>> (8 * i))).setWidth 64 <<< (8 * i) =
      BitVec.ofNat 64 (v % 2 ^ (8 * (i + 1))) := by
  apply BitVec.eq_of_getLsbD_eq
  intro j hj
  simp only [BitVec.getLsbD_or, BitVec.getLsbD_shiftLeft, BitVec.getLsbD_setWidth, BitVec.getLsbD_ofNat,
    Nat.testBit_mod_two_pow, Nat.testBit_shiftRight]
  by_cases h : j < 8 * i
  · simp [hj, h, show j < 8 * (i + 1) by omega]
  · have e : 8 * i + (j - 8 * i) = j := by omega
    have e1 : j - 8 * i < 64 := by omega
    by_cases h' : j < 8 * (i + 1)
    · simp [hj, h, h', e, e1, show j - 8 * i < 8 by omega]
    · simp [hj, h, h', e, show ¬ j - 8 * i < 8 by omega]

/-- Bytes that start where a register starts give it their number, under the mask of their bits. -/
theorem regSlice_natLe (o n v : Nat) (h : n ≤ 8) :
    regSlice o (natLe n v) o = (BitVec.ofNat 64 (v % 2 ^ (8 * n)), 2 ^ (8 * n) - 1) := by
  suffices key : ∀ m, (List.range m).foldl (fun (a : Word × Nat) i =>
      if o ≤ o + i ∧ o + i < o + (natLe n v).length then
        (a.1 ||| ((((natLe n v).getD (o + i - o) 0).setWidth 64) <<< (8 * i)), a.2 + 255 * 2 ^ (8 * i))
      else a) (0, 0) = (BitVec.ofNat 64 (v % 2 ^ (8 * min m n)), 2 ^ (8 * min m n) - 1) by
    have := key 8
    rwa [Nat.min_eq_right h] at this
  intro m
  induction m with
  | zero => simp [Nat.mod_one]
  | succ m ih =>
    rw [List.range_succ, List.foldl_append, ih, List.foldl_cons, List.foldl_nil, natLe_length]
    by_cases hm : m < n
    · have hp : 2 ^ (8 * (m + 1)) = 256 * 2 ^ (8 * m) := by rw [Nat.mul_add, Nat.pow_add, Nat.mul_comm]
      have hpos := Nat.two_pow_pos (8 * m)
      rw [if_pos (by omega), Nat.add_sub_cancel_left, natLe_getD n v m hm, Nat.min_eq_left (by omega),
        Nat.min_eq_left (by omega), ofNat_mod_or_byte]
      refine Prod.ext rfl ?_
      show 2 ^ (8 * m) - 1 + 255 * 2 ^ (8 * m) = 2 ^ (8 * (m + 1)) - 1
      omega
    · rw [if_neg (by omega), Nat.min_eq_right (by omega), Nat.min_eq_right (by omega)]

/-! ### Which register an offset holds -/

/-- The registers that 8 bytes of one wide register touch: that register. -/
theorem regsIn_wide {o : Nat} (h4 : o % 4 = 0) (h : regStart o = some o) (h' : regStart (o + 4) = some o) :
    regsIn o 8 = [o] := by
  have e : o / 4 * 4 = o := by omega
  have r : List.range ((o % 4 + 8 + 3) / 4) = [0, 1] := by rw [h4]; rfl
  simp [regsIn, r, e, h, h', List.eraseDups_cons]

/-- The registers of a sync counter (R408). -/
theorem regInfo_ctr (k r : Nat) (hk : k < 65536) (hr : r < 16) :
    regInfo ((ctrReg k + r) % 0x10000000) = lookupReg ctrRegs r := by
  unfold ctrReg
  have e : (0x500000 + k * 16 + r) % 0x10000000 = 0x500000 + k * 16 + r := by omega
  unfold regInfo
  rw [e, if_neg (by omega), if_neg (by omega), if_neg (by omega), if_neg (by omega), if_neg (by omega),
    if_neg (by omega), if_pos (by omega)]
  congr 1
  omega

theorem regStart_ctr (k r : Nat) (hk : k < 65536) (hr : r = 0 ∨ r = 8) :
    regStart (ctrReg k + r) = some (ctrReg k + r) ∧ regStart (ctrReg k + r + 4) = some (ctrReg k + r) := by
  have h16 : ctrReg k % 4 = 0 := by unfold ctrReg; omega
  have e : (ctrReg k + r) / 4 * 4 = ctrReg k + r := by omega
  have e' : (ctrReg k + r + 4) / 4 * 4 = ctrReg k + (r + 4) := by omega
  have e4 : ctrReg k + (r + 4) - 4 = ctrReg k + r := by omega
  have hge : 4 ≤ ctrReg k + (r + 4) := by omega
  unfold regStart
  rw [e, e', e4, regInfo_ctr k r hk (by omega), regInfo_ctr k (r + 4) hk (by omega)]
  rcases hr with rfl | rfl <;> simp [lookupReg, ctrRegs, hge]

/-- The 8 bytes at either register of a counter are that register. -/
theorem regsIn_ctr (k r : Nat) (hk : k < 65536) (hr : r = 0 ∨ r = 8) : regsIn (ctrReg k + r) 8 = [ctrReg k + r] := by
  obtain ⟨h, h'⟩ := regStart_ctr k r hk hr
  exact regsIn_wide (by unfold ctrReg; omega) h h'

/-- Where a kernel path's offset of a counter's register lies (R31). -/
theorem physOff_ctr {s : State} {part i k : Nat} (r : Nat) (hr : r < 16) (hi : i < 65536)
    (h : s.physCtr part i = some k) : s.physOff part (0x500000 + r + 16 * i) = some (ctrReg k + r) := by
  unfold State.physCtr at h
  unfold State.physOff ctrReg
  cases hs : s.split with
  | false =>
    simp only [hs, Bool.not_false, if_true, Option.some.injEq] at h
    simp only [Bool.false_eq_true, if_false, Option.some.injEq]
    omega
  | true =>
    simp only [hs, Bool.not_true, Bool.false_eq_true, if_false] at h
    split at h
    · next hlt =>
      simp only [Option.some.injEq] at h
      simp only [if_true]
      unfold splitOff
      rw [if_neg (by omega), if_neg (by omega), if_neg (by omega), if_neg (by omega), if_neg (by omega),
        if_neg (by omega), if_neg (by omega), if_pos (by omega)]
      unfold shareOff
      rw [if_pos (by omega), Option.some.injEq]
      omega
    · cases h

/-! ### Writes through the kernel path (R30, R447) -/

/-- A kernel path is that of a PF whose port serves requests, and its partition is the port's. -/
theorem kernelPath_some {s : State} {path : Path} {part : Nat} (h : s.kernelPath path = some part) :
    ∃ p fn, path = .bar0 p fn ∧ s.portServes p = true ∧ part = s.portPart p := by
  unfold State.kernelPath at h
  cases path with
  | bar4 p => cases h
  | bar0 p fn =>
    simp only at h
    split at h
    · next hc =>
      obtain ⟨-, -, hserves, -⟩ := hc
      exact ⟨p, fn, rfl, hserves, (Option.some.inj h).symm⟩
    · cases h

theorem kernelPath_lt_two {s : State} {path : Path} {part : Nat} (h : s.kernelPath path = some part) : part < 2 := by
  obtain ⟨p, -, -, -, rfl⟩ := kernelPath_some h
  unfold State.portPart
  split
  · exact p.isLt
  · exact Nat.two_pos

theorem physCtr_lt {s : State} {part i k : Nat} (hp : part < 2) (hi : i < 65536) (h : s.physCtr part i = some k) :
    k < 65536 := by
  unfold State.physCtr at h
  split at h
  · cases h
    exact hi
  · split at h
    · cases h
      omega
    · cases h

/-- Outside instruction memory, a kernel-path write acts on register space where the path to it is good. -/
theorem hostWrite_kernel {s : State} {path : Path} {part : Nat} (h : s.kernelPath path = some part) (off : Nat)
    (bs : List Byte) (hi : ¬ (0x2000000 ≤ off ∧ off < 0x2800000)) :
    s.hostWrite path off bs =
      if s.regReach (pathDie path) part off ≠ .ok then s else (s.regWrite part off true bs).2 := by
  obtain ⟨p, fn, rfl, -, -⟩ := kernelPath_some h
  unfold State.hostWrite
  simp only [h, if_neg hi]
  rfl

/-- Bytes that touch no register change nothing (R7). -/
theorem regWrite_no_register {s : State} {part off o : Nat} {bs : List Byte} (kernel : Bool)
    (ho : s.physOff part off = some o) (hm : ¬ (0x90000 ≤ o ∧ o < 0x90800)) (hr : regsIn o bs.length = []) :
    s.regWrite part off kernel bs = (false, s) := by
  unfold State.regWrite
  simp only [ho, if_neg hm, hr, List.foldl_nil]

/-- Bytes that touch one register write it with their value under their mask. -/
theorem regWrite_one {s : State} {part off o r : Nat} {bs : List Byte} (kernel : Bool)
    (ho : s.physOff part off = some o) (hm : ¬ (0x90000 ≤ o ∧ o < 0x90800)) (hr : regsIn o bs.length = [r]) :
    s.regWrite part off kernel bs = (false, s.writeReg part r kernel (regSlice o bs r).1 (regSlice o bs r).2) := by
  unfold State.regWrite
  simp only [ho, if_neg hm, hr, List.foldl_cons, List.foldl_nil]

/-- Bytes of a REGISTER_WRITE. -/
def writeBytes (wide : Bool) : Nat := if wide then 8 else 4

/-- REGISTER_WRITE of a register that the kernel path reaches: the register takes the value's bytes (R6). -/
theorem execRegisterWrite_register {s : State} {path : Path} {part off o : Nat} {wide : Bool} (v : BitVec 64)
    (h : s.kernelPath path = some part) (hi : ¬ (0x2000000 ≤ off ∧ off < 0x2800000))
    (ho : s.physOff part off = some o) (hm : ¬ (0x90000 ≤ o ∧ o < 0x90800))
    (hreach : s.regReach (pathDie path) part off = .ok) (hr : regsIn o (writeBytes wide) = [o]) :
    exec (.registerWrite path off wide v) s =
      .next (s.writeReg part o true (BitVec.ofNat 64 (v.toNat % 2 ^ (8 * writeBytes wide)))
        (2 ^ (8 * writeBytes wide) - 1)) := by
  have hn : writeBytes wide ≤ 8 := by cases wide <;> decide
  show Host.Outcome.next (s.hostWrite path off (natLe (writeBytes wide) v.toNat)) = _
  rw [hostWrite_kernel h off _ hi, if_neg (by simp [hreach]),
    regWrite_one true ho hm (by rw [natLe_length]; exact hr), regSlice_natLe o _ _ hn]

/-! ### Counter registers that the kernel path writes (R408) -/

/-- A write of a counter's register: TQ_CTR_ADD adds, TQ_CTR_VALUE is set. -/
theorem writeReg_ctr (s : State) (part k r : Nat) (v : Word) (mask : Nat) (hk : k < 65536) (hr : r = 0 ∨ r = 8) :
    s.writeReg part (ctrReg k + r) true v mask =
      if r = 8 then s.ctrAdd k (v &&& BitVec.ofNat 64 mask) else s.ctrSet k (maskIn (s.reg (ctrReg k + r)) v mask) := by
  have hinfo : ∃ i, regInfo ((ctrReg k + r) % 0x10000000) = some i := by
    rw [regInfo_ctr k r hk (by omega)]
    rcases hr with rfl | rfl <;> exact ⟨_, rfl⟩
  obtain ⟨i, hinfo⟩ := hinfo
  have hval : ctrReg k + r = 0x500000 + k * 16 + r := rfl
  generalize ctrReg k + r = o at hinfo hval ⊢
  have hmod : o % 0x10000000 = o := by omega
  have hchan : chanAt o = none := by
    unfold chanAt
    rw [if_neg (by omega), if_neg (by omega)]
  have hblock : o / 0x100000 = 5 := by omega
  have hlow : s.writeReg part o true v mask = s.writeLowReg part o i v mask := by
    unfold State.writeReg
    simp only [hinfo]
    rw [hmod, if_neg (by simp [hblock]), if_neg (by omega), if_neg (by omega), hchan]
    exact if_neg (by omega)
  rw [hlow]
  unfold State.writeLowReg
  simp only [hmod]
  rw [if_neg (by omega), if_neg (by omega), if_neg (by omega), if_neg (by omega), if_neg (by omega),
    if_neg (by omega), if_pos (by omega), show (o - 0x500000) / 16 = k by omega]
  by_cases h8 : r = 8
  · rw [if_pos (by omega), if_pos h8]
  · rw [if_neg (by omega), if_neg h8]

/-! ### Writes under the access codes (R6) -/

/-- Masked writes leave everything but their register. -/
theorem onlyRegs_writeFields (s : State) (o : Nat) (i : RegInfo) (v : Word) (mask : Nat) :
    onlyRegs [o] s (s.writeFields o i v mask) := (onlyRegs.refl _ s).setReg _ (List.mem_singleton.mpr rfl)

/-- What a write under the access codes leaves in each bit (R6): WC bits that are written 1 clear, RW bits take the
value, all others stay. -/
theorem flag_writeFields (s : State) (o : Nat) (i : RegInfo) (v : Word) (mask n : Nat) :
    flag ((s.writeFields o i v mask).reg o) n =
      ((if (i.rw &&& mask).testBit n then flag v n else flag (s.reg o) n) &&
        !(flag v n && (i.wc &&& mask).testBit n)) := by
  unfold State.writeFields
  rw [State.reg_setReg_same, ← flag_maskIn]
  simp only [flag_eq_getLsbD, BitVec.getLsbD_and, BitVec.getLsbD_not, BitVec.getLsbD_ofNat]
  by_cases hn : n < 64
  · simp [hn]
  · simp [hn, BitVec.getLsbD_of_ge _ n (Nat.le_of_not_lt hn)]

/-- A register without writable bits reads as before (R6). -/
theorem onlyRegs_writeFields_readOnly (s : State) (o : Nat) {i : RegInfo} (v : Word) (mask : Nat) (hrw : i.rw = 0)
    (hwc : i.wc = 0) : onlyRegs [] s (s.writeFields o i v mask) := by
  obtain ⟨hstate, hrest⟩ := onlyRegs_writeFields s o i v mask
  refine ⟨hstate, fun k _ => ?_⟩
  by_cases hk : k = o
  · subst hk
    exact word_ext_flag fun n _ => by simp [flag_writeFields, hrw, hwc]
  · exact hrest k (by simpa using hk)

/-! ### Counters (R393, R408) -/

/-- A counter of a die in service takes an addition, and nothing else changes. -/
theorem ctrAdd_alive {s : State} {k : Nat} (h : s.dieLost (ctrDie k) = false) (v : Word) :
    (s.ctrAdd k v).reg (ctrReg k) = s.reg (ctrReg k) + v ∧ onlyRegs [ctrReg k] s (s.ctrAdd k v) := by
  have e : s.ctrAdd k v = s.setReg (ctrReg k) (s.ctr k + v) := if_neg (by simp [h])
  rw [e]
  exact ⟨State.reg_setReg_same _ _ _, (onlyRegs.refl _ s).setReg _ (List.mem_singleton.mpr rfl)⟩

/-- A counter of a die in service takes a value, and nothing else changes. -/
theorem ctrSet_alive {s : State} {k : Nat} (h : s.dieLost (ctrDie k) = false) (v : Word) :
    (s.ctrSet k v).reg (ctrReg k) = v ∧ onlyRegs [ctrReg k] s (s.ctrSet k v) := by
  have e : s.ctrSet k v = s.setReg (ctrReg k) v := if_neg (by simp [h])
  rw [e]
  exact ⟨State.reg_setReg_same _ _ _, (onlyRegs.refl _ s).setReg _ (List.mem_singleton.mpr rfl)⟩

/-- The path to a counter's register is never lost (R448): it answers by itself. -/
theorem regReach_ctr {s : State} {part i k : Nat} (r die : Nat) (hr : r < 16) (hi : i < 65536) (hk : k < 65536)
    (h : s.physCtr part i = some k) : s.regReach die part (0x500000 + r + 16 * i) = .ok := by
  unfold State.regReach
  rw [physOff_ctr r hr hi h]
  exact if_pos (by unfold ctrReg; omega)

/-- REGISTER_WRITE of all 8 bytes of a counter's register by the kernel path (R408). -/
theorem execRegisterWrite_ctr {s : State} {path : Path} {part i k : Nat} {r : Nat} (v : BitVec 64)
    (hp : s.kernelPath path = some part) (hi : i < 65536) (h : s.physCtr part i = some k) (hr : r = 0 ∨ r = 8) :
    exec (.registerWrite path (0x500000 + r + 16 * i) true v) s =
      .next (if r = 8 then s.ctrAdd k v else s.ctrSet k v) := by
  have hk := physCtr_lt (kernelPath_lt_two hp) hi h
  have hand : v &&& BitVec.ofNat 64 (2 ^ (8 * writeBytes true) - 1) = v := BitVec.and_allOnes
  have hmask : 2 ^ (8 * writeBytes true) - 1 = 2 ^ 64 - 1 := rfl
  have hv : BitVec.ofNat 64 (v.toNat % 2 ^ (8 * writeBytes true)) = v := by
    rw [show v.toNat % 2 ^ (8 * writeBytes true) = v.toNat from Nat.mod_eq_of_lt v.isLt, BitVec.ofNat_toNat,
      BitVec.setWidth_eq]
  rw [execRegisterWrite_register (wide := true) v hp (by omega) (physOff_ctr r (by omega) hi h)
    (by unfold ctrReg; omega) (regReach_ctr r _ (by omega) hi hk h) (regsIn_ctr k r hk hr),
    writeReg_ctr s part k r _ _ hk hr, hv, hand, hmask, maskIn_all]

/-! ### GLB_MODE, PWR_STATUS and PWR_INT_EN (R45, R46)

Registers of no die: one read-only, one with WC bits, one with RW bits. Their offsets are the same in both partitions,
and no rule of their own stands before the access codes. -/

section
variable {o : Nat} (ho : o = 0x8 ∨ o = 0x10010 ∨ o = 0x1001C)
include ho

/-- Each takes a kernel-path write by its access codes (R6). -/
theorem writeReg_plain {i : RegInfo} (hi : regInfo o = some i) (s : State) (part : Nat) (v : Word) (mask : Nat) :
    s.writeReg part o true v mask = s.writeFields o i v mask := by
  rcases ho with rfl | rfl | rfl <;> · obtain rfl := Option.some.inj hi; rfl

theorem physOff_plain (s : State) (part : Nat) : s.physOff part o = some o := by
  unfold State.physOff
  rcases ho with rfl | rfl | rfl <;> cases s.split <;> rfl

theorem regReach_plain (s : State) (die part : Nat) : s.regReach die part o = .ok := by
  unfold State.regReach
  rw [physOff_plain ho]
  rcases ho with rfl | rfl | rfl <;> rfl

/-- REGISTER_WRITE of 4 bytes of one of them by the kernel path. -/
theorem execRegisterWrite_plain {i : RegInfo} (hi : regInfo o = some i) {s : State} {path : Path} {part : Nat}
    (hp : s.kernelPath path = some part) (v : BitVec 64) :
    exec (.registerWrite path o false v) s =
      .next (s.writeFields o i (BitVec.ofNat 64 (v.toNat % 2 ^ 32)) (2 ^ 32 - 1)) := by
  have hregs : regsIn o (writeBytes false) = [o] := by rcases ho with rfl | rfl | rfl <;> decide
  rw [execRegisterWrite_register v hp (by omega) (physOff_plain ho s part) (by omega) (regReach_plain ho s _ part)
    hregs, writeReg_plain ho hi]
  rfl

end

/-- Bits below 32 of a value cut to 4 bytes. -/
theorem flag_low (v : BitVec 64) (n : Nat) (h : n < 32) :
    flag (BitVec.ofNat 64 (v.toNat % 2 ^ 32)) n = v.toNat.testBit n := by
  rw [flag_eq_getLsbD, BitVec.getLsbD_ofNat, Nat.testBit_mod_two_pow]
  simp [h, show n < 64 by omega]

/-- PWR_STATUS (R46) after a write of 4 bytes: its WC bits, 3:1, clear where the value has a 1. -/
theorem flag_writeFields_pwrStatus (s : State) (v : BitVec 64) {i : RegInfo} (hrw : i.rw = 0) (hwc : i.wc = 0xE)
    (n : Nat) :
    flag ((s.writeFields 0x10010 i (BitVec.ofNat 64 (v.toNat % 2 ^ 32)) (2 ^ 32 - 1)).reg 0x10010) n =
      (flag (s.reg 0x10010) n && !(decide (1 ≤ n ∧ n ≤ 3) && v.toNat.testBit n)) := by
  have hbits : Nat.testBit (0xE &&& (2 ^ 32 - 1)) n = decide (1 ≤ n ∧ n ≤ 3) := by
    rw [show 0xE &&& (2 ^ 32 - 1) = (2 ^ 3 - 1) <<< 1 from rfl, Nat.testBit_shiftLeft, Nat.testBit_two_pow_sub_one,
      Bool.eq_iff_iff]
    simp only [Bool.and_eq_true, decide_eq_true_eq]
    omega
  rw [flag_writeFields, hrw, hwc, hbits, Nat.zero_and, Nat.zero_testBit, if_neg Bool.false_ne_true]
  by_cases hn : 1 ≤ n ∧ n ≤ 3
  · rw [flag_low v n (by omega), Bool.and_comm (v.toNat.testBit n)]
  · rw [decide_eq_false hn, Bool.and_false, Bool.false_and]

/-- PWR_INT_EN (R46) after a write of 4 bytes: its field is the value's. -/
theorem field_writeFields_pwrIntEn (s : State) (v : BitVec 64) {i : RegInfo} (hrw : i.rw = 0x7) (hwc : i.wc = 0) :
    field ((s.writeFields 0x1001C i (BitVec.ofNat 64 (v.toNat % 2 ^ 32)) (2 ^ 32 - 1)).reg 0x1001C) 2 0 =
      v.toNat % 8 := by
  apply Nat.eq_of_testBit_eq
  intro n
  rw [field, bitsN_testBit, Nat.zero_add, show (8 : Nat) = 2 ^ 3 from rfl, Nat.testBit_mod_two_pow]
  by_cases hn : n < 3
  · have hbits : Nat.testBit (0x7 &&& (2 ^ 32 - 1)) n = true := by
      rw [show 0x7 &&& (2 ^ 32 - 1) = 2 ^ 3 - 1 from rfl, Nat.testBit_two_pow_sub_one, decide_eq_true hn]
    have hbit := flag_writeFields s 0x1001C i (BitVec.ofNat 64 (v.toNat % 2 ^ 32)) (2 ^ 32 - 1) n
    rw [hrw, hwc, hbits, if_pos rfl, Nat.zero_and, Nat.zero_testBit, Bool.and_false, Bool.not_false, Bool.and_true,
      flag_low v n (by omega)] at hbit
    exact congrArg _ hbit
  · rw [show decide (n < 2 + 1 - 0) = decide (n < 3) from rfl, decide_eq_false hn, Bool.false_and, Bool.false_and]

/-- REGISTER_WRITE where no register lies does nothing (R7). -/
theorem completes_registerWrite_no_register {s : State} {path : Path} {part off o : Nat} {wide : Bool} (v : BitVec 64)
    (hp : s.kernelPath path = some part) (ho : s.physOff part off = some o)
    (hi : ¬ (0x2000000 ≤ off ∧ off < 0x2800000)) (hm : ¬ (0x90000 ≤ o ∧ o < 0x90800))
    (hr : regsIn o (writeBytes wide) = []) : completes (.registerWrite path off wide v) s s := by
  show Host.Outcome.next (s.hostWrite path off (natLe (writeBytes wide) v.toNat)) = .next s
  rw [hostWrite_kernel hp off _ hi, regWrite_no_register true ho hm (by rw [natLe_length]; exact hr), ite_self]

/-- REGISTER_WRITE through a port that serves no requests does nothing (R440). -/
theorem completes_registerWrite_unserved {s : State} {p : Fin 2} (h : s.portServes p = false) (fn : Fin 32) (off : Nat)
    (wide : Bool) (v : BitVec 64) : completes (.registerWrite (.bar0 p fn) off wide v) s s := by
  have hk : s.kernelPath (.bar0 p fn) = none := by simp [State.kernelPath, h]
  have hv : s.vfPath (.bar0 p fn) = none := by simp [State.vfPath, h]
  show Host.Outcome.next (s.hostWrite (.bar0 p fn) off _) = .next s
  unfold State.hostWrite
  simp only [hk, hv]
  rw [if_pos (.inr h)]

/-! ### The rows of a counter (R393, R408) -/

/-- TQ_CTR_ADD_WRITE adds to the counter that its path reaches. -/
theorem completes_tqCtrAddWrite {s : State} {path : Path} {i : Fin 65536} {x : Nat × Bool} {k : Nat} (v : BitVec 64)
    (hx : s.counterPath path = some x) (hk : s.physCtr x.1 i = some k) :
    completes (.tqCtrAddWrite path i v) s (s.ctrAdd k v) := by
  simp only [completes, exec, execTqCtrAddWrite, hx, hk]

/-- TQ_CTR_VALUE_WRITE sets the counter that the kernel path reaches. -/
theorem completes_tqCtrValueWrite {s : State} {path : Path} {i : Fin 65536} {part k : Nat} (v : BitVec 64)
    (hp : s.kernelPath path = some part) (hk : s.physCtr part i = some k) :
    completes (.tqCtrValueWrite path i v) s (s.ctrSet k v) := by
  simp only [completes, exec, execTqCtrValueWrite, hp, hk]

/-- Outside the kernel path no value is written. -/
theorem completes_tqCtrValueWrite_outside {s : State} {path : Path} (i : Fin 65536) (v : BitVec 64)
    (hp : s.kernelPath path = none) : completes (.tqCtrValueWrite path i v) s s := by
  simp only [completes, exec, execTqCtrValueWrite, hp]

/-- Outside the kernel path and the VFs' windows nothing is added. -/
theorem completes_tqCtrAddWrite_outside {s : State} {path : Path} (i : Fin 65536) (v : BitVec 64)
    (hp : s.kernelPath path = none) (hv : s.vfPath path = none) : completes (.tqCtrAddWrite path i v) s s := by
  simp only [completes, exec, execTqCtrAddWrite, State.counterPath, hp, hv]

/-- Settles O47: the counters through their rows and their registers; an offset without a register and a register of
each access kind; a port that serves no requests. -/
theorem hostsWriteRegisters : Obligations.HostsWriteRegisters := by
  refine ⟨fun s path i v => ⟨fun x k hx hk hd => ?add, fun part k hp hk hd => ?kernel, fun hp => ?outside⟩,
    fun s path part wide v hp => ⟨fun off o ho hi hm hr => ?noRegister, ?readOnly, ?clears, ?stores⟩,
    fun s p fn off wide v h => completes_registerWrite_unserved h fn off wide v⟩
  case add => exact ⟨_, completes_tqCtrAddWrite v hx hk, ctrAdd_alive hd v⟩
  case kernel =>
    exact ⟨⟨_, completes_tqCtrValueWrite v hp hk, ctrSet_alive hd v⟩,
      ⟨_, execRegisterWrite_ctr (r := 0) v hp i.isLt hk (.inl rfl), ctrSet_alive hd v⟩,
      ⟨_, execRegisterWrite_ctr (r := 8) v hp i.isLt hk (.inr rfl), ctrAdd_alive hd v⟩⟩
  case outside =>
    exact ⟨completes_tqCtrValueWrite_outside i v hp, completes_tqCtrAddWrite_outside i v hp⟩
  case noRegister => exact completes_registerWrite_no_register v hp ho hi hm hr
  case readOnly =>
    exact ⟨_, execRegisterWrite_plain (.inl rfl) rfl hp v, onlyRegs_writeFields_readOnly s _ _ _ rfl rfl⟩
  case clears =>
    exact ⟨_, execRegisterWrite_plain (.inr (.inl rfl)) rfl hp v, onlyRegs_writeFields _ _ _ _ _,
      flag_writeFields_pwrStatus s v rfl rfl⟩
  case stores =>
    exact ⟨_, execRegisterWrite_plain (.inr (.inr rfl)) rfl hp v, onlyRegs_writeFields _ _ _ _ _,
      field_writeFields_pwrIntEn s v rfl rfl⟩

end Sys2Proof.Machine
end

section
/-! SUPPORT. What the events of a matrix unit do and leave: units of a tile, commands at their start, runs that settle,
reads of a scratchpad whose words are good; with the statements O17 and O18. -/
namespace Sys2Proof.Machine

/-! ### Units and banks of a tile -/

@[simp] theorem Tile.unit_setUnit_same (x : Tile) (u : MUnit) (m : MUnitSt) : (x.setUnit u m).unit u = m := by
  cases u <;> rfl

@[simp] theorem Tile.bank_setUnit (x : Tile) (u : MUnit) (m : MUnitSt) (i : Bool) :
    (x.setUnit u m).bank i = x.bank i := by
  cases u <;> rfl

@[simp] theorem Tile.bankOf_setUnit (x : Tile) (u : MUnit) (m : MUnitSt) (cid : Nat) :
    (x.setUnit u m).bankOf cid = x.bankOf cid := by
  cases u <;> rfl

@[simp] theorem Tile.unit_setBank (x : Tile) (i : Bool) (b : Bank) (u : MUnit) :
    (x.setBank i b).unit u = x.unit u := by
  cases i <;> cases u <;> rfl

@[simp] theorem Tile.bank_setBank_same (x : Tile) (i : Bool) (b : Bank) : (x.setBank i b).bank i = b := by
  cases i <;> rfl

/-! ### Frames of a tile and its registers -/

theorem onlyTile_setTile (s : State) (t : Nat) (x : Tile) : onlyTile t s (s.setTile t x) :=
  ⟨rfl, fun k hk => by rw [State.tile_setTile, if_neg hk]⟩

theorem onlyUnit_setUnit (s : State) (t : Nat) (u : MUnit) (m : MUnitSt) :
    onlyUnit t u s (s.setTile t ((s.tile t).setUnit u m)) :=
  ⟨onlyTile_setTile s t _, by simp⟩

theorem onlyTileAnd.refl (t : Nat) (L : List Nat) (s : State) : onlyTileAnd t L s s :=
  ⟨rfl, fun _ _ => rfl, fun _ _ => rfl⟩

theorem onlyTileAnd.setReg {t : Nat} {L : List Nat} {s v : State} (h : onlyTileAnd t L s v) {o : Nat} (w : Word)
    (ho : o ∈ L) : onlyTileAnd t L s (v.setReg o w) := by
  obtain ⟨heq, hregs, htiles⟩ := h
  exact ⟨by rw [heq]; rfl, regsBut.setReg hregs w ho, htiles⟩

theorem onlyTileAnd.setTile {t : Nat} {L : List Nat} {s v : State} (h : onlyTileAnd t L s v) (x : Tile) :
    onlyTileAnd t L s (v.setTile t x) := by
  obtain ⟨heq, hregs, htiles⟩ := h
  exact ⟨by rw [heq]; rfl, hregs, fun k hk => by rw [State.tile_setTile, if_neg hk, htiles k hk]⟩

/-! ### A run that settles -/

theorem MRun.closeAll_frame (r : MRun) : r.closeAll = { r with halves := r.closeAll.halves } := by
  unfold MRun.closeAll
  split
  · rfl
  · split <;> rfl

/-- What follows an event by itself concerns the window, the staging blocks, z, the groups of a command with K = 0 and
the end; the rest of a run stays. -/
theorem MRun.settle_frame (r : MRun) : r.settle = { r with
    halves := r.settle.halves, stage := r.settle.stage, z := r.settle.z, fed := r.settle.fed
    finished := r.settle.finished } := by
  unfold MRun.settle
  rw [MRun.closeAll_frame]
  dsimp only
  split
  · rfl
  · split
    · rfl
    · split
      · rfl
      · split
        · split <;> rfl
        · split <;> rfl
    · rfl

@[simp] theorem MRun.settle_stop (r : MRun) : r.settle.stop = r.stop := by rw [MRun.settle_frame]
@[simp] theorem MRun.settle_res (r : MRun) : r.settle.res = r.res := by rw [MRun.settle_frame]
@[simp] theorem MRun.settle_stream (r : MRun) : r.settle.stream = r.stream := by rw [MRun.settle_frame]
@[simp] theorem MRun.settle_streamNext (r : MRun) : r.settle.streamNext = r.streamNext := by
  rw [MRun.settle_frame]

/-! ### A unit's run in the state -/

theorem State.munit_of_on {s : State} {t : Nat} (h : s.tileOn t = true) (u : MUnit) : s.munit t u = s.runOf t u :=
  if_pos h

@[simp] theorem State.runOf_putRun_same (s : State) (t : Nat) (u : MUnit) (r : MRun) :
    (s.putRun t u r).runOf t u = some r.settle := by
  simp [State.putRun, State.runOf]

theorem onlyUnit_putRun (s : State) (t : Nat) (u : MUnit) (r : MRun) : onlyUnit t u s (s.putRun t u r) :=
  onlyUnit_setUnit s t u _

theorem onlyTileAnd.putRun {t : Nat} {L : List Nat} {s v : State} (h : onlyTileAnd t L s v) (u : MUnit) (r : MRun) :
    onlyTileAnd t L s (v.putRun t u r) :=
  h.setTile _

/-! ### Commands at their start (R113, R118, R135) -/

theorem startRun_frame (c : QCmd) : startRun c = { MRun.start c with
    halves := (startRun c).halves, fed := (startRun c).fed, res := (startRun c).res
    finished := (startRun c).finished } := by
  unfold startRun
  dsimp only
  split
  · split <;> rfl
  · split
    · rfl
    · split
      · rfl
      · split
        · rfl
        · split
          · split <;> rfl
          · rfl

theorem QCmd.mplate_mm {c : QCmd} {op : MOp} {p : MPlate} (h : c.work = .mm op p) : c.mplate = (op, p) := by
  simp only [QCmd.mplate, h]

/-- A group's half 0 exists where the output has columns. -/
theorem groupHalves_zero_ne_nil {p : MPlate} (h : p.n ≠ 0) : groupHalves p 0 ≠ [] := by
  have hc : 0 < ceilDiv p.n 64 := by unfold ceilDiv; omega
  simp [groupHalves, hc]

theorem soleHalf_ne_nil {c : QCmd} {p : MPlate} (h : c.work = .mm .drain p) : soleHalf c ≠ [] := by
  simp [soleHalf, h]

section
variable {c : QCmd} {op : MOp} {p : MPlate} (hc : c.work = .mm op p)
include hc

theorem startRun_no_output (h : p.m = 0 ∨ p.n = 0) : startRun c = { MRun.start c with finished := true } := by
  simp only [startRun, hc, QCmd.mplate_mm hc, if_pos h]

theorem startRun_outside (hm : p.m ≠ 0) (hn : p.n ≠ 0) (h : ∃ e ∈ mmExtents op p, spSize < e.1 + e.2) :
    startRun c = { MRun.start c with res := .bounds, finished := true } := by
  obtain ⟨e, hmem, hout⟩ := h
  have hfit : (mmExtents op p).all fits = false :=
    List.all_eq_false.mpr ⟨e, hmem, by simpa [fits] using hout⟩
  simp [startRun, hc, QCmd.mplate_mm hc, hm, hn, hfit]

/-- A command with output, its extents inside the scratchpad and something to reduce, drain or overwrite opens the
halves of its first group. -/
theorem startRun_works (hm : p.m ≠ 0) (hn : p.n ≠ 0) (hin : ∀ e ∈ mmExtents op p, e.1 + e.2 ≤ spSize)
    (hw : p.k ≠ 0 ∨ op = .drain ∨ p.overwrite = true ∨ p.drain = true) :
    ∃ hs n, hs ≠ [] ∧ startRun c = { MRun.start c with halves := hs, fed := n } := by
  have hfit : (mmExtents op p).all fits = true :=
    List.all_eq_true.mpr fun e he => decide_eq_true (hin e he)
  by_cases hd : op = .drain
  · subst hd
    exact ⟨_, 0, soleHalf_ne_nil hc, by simp [startRun, hc, QCmd.mplate_mm hc, hm, hn, hfit, MRun.start]⟩
  by_cases hk : p.k = 0
  · have hne : emptyHalves p 0 ≠ [] := by simpa [emptyHalves] using groupHalves_zero_ne_nil hn
    have ho : p.overwrite = true ∨ p.drain = true := by simpa [hk, hd] using hw
    have hidle : (!p.overwrite && !p.drain) = false := by
      rcases ho with h | h <;> simp [h]
    exact ⟨_, 1, hne, by simp [startRun, hc, QCmd.mplate_mm hc, hm, hn, hfit, hd, hk, hidle]⟩
  · exact ⟨_, 0, groupHalves_zero_ne_nil hn, by
      simp [startRun, hc, QCmd.mplate_mm hc, hm, hn, hfit, hd, hk, MRun.start]⟩

end

/-! ### MATRIX_COMMAND_START (R137, R175, R179) -/

section
variable {s : State} {t : TileId} {u : MUnit} {c : QCmd} {rest : List QCmd} (hon : s.tileOn t = true)
  (hq : ((s.tile t).unit u).queue = c :: rest)
include hon hq

theorem completes_matrixCommandStart_held (hh : (s.tile t).headHeld c = true) :
    completes (.matrixCommandStart t u) s (s.count64 (uReg t u 0x38) 1) := by
  simp [completes, exec, execMatrixCommandStart, hq, hon, hh]

theorem completes_matrixCommandStart_busy (hr : s.runOf t u ≠ none) (hh : (s.tile t).headHeld c = false) :
    completes (.matrixCommandStart t u) s s := by
  have hrun : ((s.tile t).unit u).run.isSome = true := Option.isSome_iff_ne_none.mpr hr
  simp [completes, exec, execMatrixCommandStart, hq, hon, hh, hrun]

theorem completes_matrixCommandStart_event (hr : s.runOf t u = none) (hh : (s.tile t).headHeld c = false)
    (hw : s.waitMet t c = false) :
    completes (.matrixCommandStart t u) s (s.count64 (tileBase t + 0x60) 1) := by
  have hrun : ((s.tile t).unit u).run = none := hr
  simp [completes, exec, execMatrixCommandStart, hq, hon, hh, hrun, hw]

theorem completes_matrixCommandStart (hr : s.runOf t u = none) (hh : (s.tile t).headHeld c = false)
    (hw : s.waitMet t c = true) :
    completes (.matrixCommandStart t u) s (s.setTile t ((s.tile t).setUnit u ⟨rest, some (startRun c)⟩)) := by
  have hrun : ((s.tile t).unit u).run = none := hr
  simp [completes, exec, execMatrixCommandStart, hq, hon, hh, hrun, hw]

end

/-! ### Retirement with a result (R173, R176, R178) -/

theorem Status.code_lt_of_result {st : Status} (h : st.isFault = false) : st.code < 256 := by
  cases st with
  | other n => simp [Status.isFault] at h
  | _ => decide

/-- The state whose unit has let its command go, with a status in the unit's register (R142). -/
def State.released (s : State) (t : Nat) (u : MUnit) (st : Status) : State :=
  (s.setTile t ((s.tile t).setUnit u ⟨((s.tile t).unit u).queue, none⟩)).putReg (uReg t u 0) 10 3 st.code

/-- The state in which a result of a command has counted the event that the command names (R178). -/
def State.signalled (s : State) (t : Nat) (c : QCmd) : State :=
  if c.hdr.sigEn then s.incEv t c.hdr.sigEv else s

/-- A status that is no fault counts its event and joins its task's status; it raises nothing else. -/
theorem State.retire_result (s : State) (t : Nat) (c : QCmd) {st : Status} (src : FaultSource)
    (h : st.isFault = false) : s.retire t c st src = (s.signalled t c).taskStatus t c.cid st := by
  have hchk : st ≠ .chk := by rintro rfl; simp [Status.isFault] at h
  simp [State.retire, State.signalled, h, hchk]

section
variable (s : State) (t : Nat) (u : MUnit) (c : QCmd)

@[simp] theorem State.tile_released (st : Status) :
    (s.released t u st).tile t = (s.tile t).setUnit u ⟨((s.tile t).unit u).queue, none⟩ :=
  State.tile_setTile_same s t _

@[simp] theorem State.tile_signalled (k : Nat) : (s.signalled t c).tile k = s.tile k := by
  unfold State.signalled
  split <;> rfl

theorem State.reg_signalled {o : Nat} (h : o ≠ evReg t c.hdr.sigEv) : (s.signalled t c).reg o = s.reg o := by
  unfold State.signalled
  split
  · exact State.reg_setReg_ne _ _ _ _ h
  · rfl

theorem State.ev_signalled : (s.signalled t c).ev t c.hdr.sigEv =
    if c.hdr.sigEn then s.ev t c.hdr.sigEv + 1 else s.ev t c.hdr.sigEv := by
  unfold State.signalled
  split
  · simp [State.incEv, State.setEv, State.ev]
  · rfl

theorem State.field_released {st : Status} (h : st.isFault = false) :
    field ((s.released t u st).reg (uReg t u 0)) 10 3 = st.code := by
  rw [State.released, State.reg_putReg, if_pos rfl, field_putField_same _ _ _ _ (by decide)]
  exact Nat.mod_eq_of_lt (Status.code_lt_of_result h)

/-- A unit's status register is no event counter. -/
theorem uReg_status_ne_evReg {n : Nat} (h : n < 16) : uReg t u 0 ≠ evReg t n := by
  unfold uReg unitReg evReg
  omega

theorem State.ev_released {n : Nat} (st : Status) (h : n < 16) : (s.released t u st).ev t n = s.ev t n := by
  unfold State.released State.ev
  rw [State.reg_putReg, if_neg (uReg_status_ne_evReg t u h).symm, State.setTile_read_reg]

variable {s t} in
theorem onlyTileAnd.released {L : List Nat} (st : Status) (h : uReg t u 0 ∈ L) :
    onlyTileAnd t L s (s.released t u st) :=
  ((onlyTileAnd.refl t L s).setTile _).setReg _ h

variable {s t c} in
theorem onlyTileAnd.signalled {v : State} {L : List Nat} (h : onlyTileAnd t L s v) (he : evReg t c.hdr.sigEv ∈ L) :
    onlyTileAnd t L s (v.signalled t c) := by
  unfold State.signalled
  split
  · exact h.setReg _ he
  · exact h

end

section
variable (s : State) (t cid : Nat) (st : Status)

@[simp] theorem State.unit_taskStatus (u : MUnit) :
    ((s.taskStatus t cid st).tile t).unit u = (s.tile t).unit u := by
  unfold State.taskStatus
  dsimp only
  split
  · split <;> simp
  · rfl

@[simp] theorem State.reg_taskStatus (o : Nat) : (s.taskStatus t cid st).reg o = s.reg o := by
  unfold State.taskStatus
  dsimp only
  split
  · split <;> rfl
  · rfl

@[simp] theorem State.ev_taskStatus (n : Nat) : (s.taskStatus t cid st).ev t n = s.ev t n :=
  congrArg (BitVec.setWidth 32) (State.reg_taskStatus s t cid st _)

theorem State.worst_taskStatus {i : Bool} (hb : (s.tile t).bankOf cid = some i)
    (hf : ((s.tile t).bank i).faulted = false) :
    (((s.taskStatus t cid st).tile t).bank i).worst = ((s.tile t).bank i).worst.merge st := by
  simp [State.taskStatus, hb, hf]

variable {s t} in
theorem onlyTileAnd.taskStatus {v : State} {L : List Nat} (h : onlyTileAnd t L s v) :
    onlyTileAnd t L s (v.taskStatus t cid st) := by
  unfold State.taskStatus
  dsimp only
  split
  · split
    · exact h
    · exact h.setTile _
  · exact h

end

/-! ### MATRIX_COMMAND_RETIRE (R135, R176) -/

section
variable {s : State} {t : TileId} {u : MUnit} {r : MRun} (hon : s.tileOn t = true) (hr : s.runOf t u = some r)
include hon hr

theorem completes_matrixCommandRetire_unfinished (hf : r.finished = false) :
    completes (.matrixCommandRetire t u) s s := by
  simp [completes, exec, execMatrixCommandRetire, State.munit_of_on hon, hr, hf]

theorem completes_matrixCommandRetire (hf : r.finished = true) (hres : r.res.isFault = false) :
    completes (.matrixCommandRetire t u) s
      (((s.released t u r.res).signalled t r.cmd).taskStatus t r.cmd.cid r.res) := by
  simp [completes, exec, execMatrixCommandRetire, State.munit_of_on hon, hr, hf, State.retire_result _ _ _ _ hres,
    State.released]

end

/-! ### SWEEP_BOUNDARY_ABORT (R140) -/

theorem completes_sweepBoundaryAbort {s : State} {t : TileId} {u : MUnit} {r : MRun} (hon : s.tileOn t = true)
    (hr : s.runOf t u = some r) (ha : r.abortReq = true) (hc : r.fedCols = 0) (hs : r.stop = none)
    (hf : r.finished = false) (hw : 0 < r.sweeps) :
    completes (.sweepBoundaryAbort t u) s (s.putRun t u (r.stopWith .aborted)) := by
  simp [completes, exec, execSweepBoundaryAbort, State.munit_of_on hon, hr, ha, hc, hs, hf, hw]

theorem completes_sweepBoundaryAbort_unasked {s : State} {t : TileId} {u : MUnit} {r : MRun}
    (hon : s.tileOn t = true) (hr : s.runOf t u = some r) (ha : r.abortReq = false) :
    completes (.sweepBoundaryAbort t u) s s := by
  simp [completes, exec, execSweepBoundaryAbort, State.munit_of_on hon, hr, ha]

/-- Settles O17: a head that starts, is held, waits on its event or finds its unit busy; a command that an abort stops
at its boundary; one that retires with a result. -/
theorem matrixCommandsStartAndEnd : Obligations.MatrixCommandsStartAndEnd := by
  refine ⟨fun s t u c rest hon hq => ⟨fun hr hh hw => ?starts, completes_matrixCommandStart_held hon hq,
    completes_matrixCommandStart_event hon hq, completes_matrixCommandStart_busy hon hq⟩,
    fun s t u r hon hr => ⟨fun ha hc hs hf hw => ?aborts, completes_sweepBoundaryAbort_unasked hon hr,
      fun hf hres hev => ?retires, completes_matrixCommandRetire_unfinished hon hr⟩⟩
  case starts =>
    have hf := startRun_frame c
    refine ⟨_, startRun c, completes_matrixCommandStart hon hq hr hh hw, by simp, onlyUnit_setUnit s t u _,
      congrArg MRun.cmd hf, congrArg MRun.stop hf, congrArg MRun.pipe hf, fun op p hc =>
        ⟨fun h0 => ?_, fun hm hn hout => ?_, fun hm hn hin hwork => ?_⟩⟩
    · rw [startRun_no_output hc h0]
      exact ⟨rfl, rfl⟩
    · rw [startRun_outside hc hm hn hout]
      exact ⟨rfl, rfl⟩
    · obtain ⟨hs, n, hne, heq⟩ := startRun_works hc hm hn hin hwork
      rw [heq]
      exact ⟨rfl, rfl, hne⟩
  case retires =>
    refine ⟨_, completes_matrixCommandRetire hon hr hf hres, ?_, ?_, ?_, ?_,
      (onlyTileAnd.signalled (onlyTileAnd.released u _ (by simp)) (by simp)).taskStatus _ _, fun i hb hbf => ?_⟩
    · simp [State.runOf]
    · simp
    · rw [State.reg_taskStatus, State.reg_signalled _ _ _ (uReg_status_ne_evReg _ u hev),
        State.field_released _ _ _ hres]
    · rw [State.ev_taskStatus, State.ev_signalled, State.ev_released _ _ _ _ hev]
    · rw [State.worst_taskStatus _ _ _ _ (by simpa using hb) (by simpa using hbf)]
      simp
  case aborts =>
    exact ⟨_, _, completes_sweepBoundaryAbort hon hr ha hc hs hf hw, State.runOf_putRun_same s t u _,
      by simp [MRun.stopWith, hs], by simp [MRun.stopWith], onlyUnit_putRun s t u _⟩

/-! ### Reads of a scratchpad whose words are good (R245) -/

theorem State.spCheck_good {s : State} (h : s.ecc = []) (t off n : Nat) : s.spCheck t off n = (false, s) := by
  simp [State.spCheck, h]

theorem State.spCheckAll_good {s : State} (h : s.ecc = []) (t : Nat) (runs : List (Nat × Nat)) :
    s.spCheckAll t runs = (false, s) := by
  unfold State.spCheckAll
  induction runs with
  | nil => rfl
  | cons e l ih => simpa [State.spCheck_good h] using ih

theorem State.portFree_idle {s : State} {t : Nat} (h : (s.tile t).spWait = []) (ports : List Nat) :
    s.portFree t ports = true := by
  simp [State.portFree, h]

theorem MRun.mayStart_of_no_failure {r : MRun} (h : r.failAt = none) (x : Nat) : r.mayStart x = true := by
  simp only [MRun.mayStart, h]

/-- Operand elements are bytes of the scratchpad: registers do not show in them. -/
@[simp] theorem Opnd.elem_count (o : Opnd) (s : State) (a n t i k j : Nat) :
    o.elem (s.count a n) t i k j = o.elem s t i k j := rfl

@[simp] theorem Opnd.code_count (o : Opnd) (s : State) (a n t i k : Nat) :
    o.code (s.count a n) t i k = o.code s t i k := rfl

/-- The columns of B that sweep x streams: of each its elements, and the T2 codes 0b10 among them (R125, R126). -/
def State.streamHalf (s : State) (t : Nat) (op : MOp) (p : MPlate) (x : Nat) : StreamHalf :=
  let w := sweepAt p x
  let b := opndB op p
  let j := colRange p w.g
  let k := kRange p w.ks
  ⟨x, (span j.1 j.2).map fun i => ⟨(span k.1 k.2).map fun k => b.elem s t i k w.j,
    if b.fmt = 5 then ((span k.1 k.2).filter fun k => b.code s t i k == 2).length else 0⟩⟩

theorem State.elems_streamHalf (s : State) (t : Nat) (op : MOp) (p : MPlate) (x : Nat) :
    let w := sweepAt p x
    let j := colRange p w.g
    let k := kRange p w.ks
    (s.streamHalf t op p x).cols.map (·.elems) =
      (span j.1 j.2).map fun i => (span k.1 k.2).map fun k => (opndB op p).elem s t i k w.j := by
  simp [State.streamHalf]

/-! ### The loads of a working unit (R122 to R125, R131, R153) -/

section
variable {s : State} {t : TileId} {u : MUnit} {r : MRun} {op : MOp} {p : MPlate} (h : s.working t u r op p)
include h

theorem completes_stationaryLoadDone {x : Nat} (hs : 0 < r.sweeps) (hx : nextBlock p 1024 r.statNext = some x)
    (hl : r.stat.length < 2) :
    let w := sweepAt p x
    let a := opndA op p
    let i := rowRange p w.p
    let k := kRange p w.ks
    let rows := (span i.1 i.2).map fun i => (span k.1 k.2).map fun k => a.elem s t i k w.i
    completes (.stationaryLoadDone t u) s ((s.count (uReg t u 0x48) (a.badRecs s t i.1 i.2 k.1 k.2)).putRun t u
      { r with statNext := x + 1, stat := r.stat ++ [⟨x, w.p, w.ks, w.i, rows, checksumRow rows k.2⟩] }) := by
  obtain ⟨hon, hr, hp, hstop, hfail, hecc, hidle⟩ := h
  simp [completes, exec, execStationaryLoadDone, State.munit_of_on hon, hr, hp, hstop, Nat.ne_of_gt hs,
    hx, Nat.not_le_of_lt hl, MRun.mayStart_of_no_failure hfail, State.portFree_idle hidle,
    State.spCheckAll_good hecc]

theorem completes_streamLoadDone (hs : r.streamNext < r.sweeps) (hl : r.stream.length < 2)
    (hscan : r.scanFirst r.streamNext = false) :
    let w := sweepAt p r.streamNext
    let j := colRange p w.g
    let k := kRange p w.ks
    completes (.streamLoadDone t u) s
      ((s.count (uReg t u 0x48) ((opndB op p).badRecs s t j.1 j.2 k.1 k.2)).putRun t u
        { r with streamNext := r.streamNext + 1, stream := r.stream ++ [s.streamHalf t op p r.streamNext] }) := by
  obtain ⟨hon, hr, hp, hstop, hfail, hecc, hidle⟩ := h
  simp [completes, exec, execStreamLoadDone, State.munit_of_on hon, hr, hp, hstop, Nat.not_le_of_lt hs,
    Nat.not_le_of_lt hl, hscan, MRun.mayStart_of_no_failure hfail, State.portFree_idle hidle,
    State.spCheckAll_good hecc, State.streamHalf]

theorem completes_anchorScanDone {x : HalfRun} (hx : (r.halves.find? fun x => !x.anchored) = some x)
    (hs : r.sweeps ≠ 0) (hn : needsScan p = true)
    (hread : ∀ y ∈ r.halves, sameGroup y x = true → y.hdrRead = true) :
    completes (.anchorScanDone t u) s (s.putRun t u { r with
      halves := r.halves.map fun y =>
        if sameGroup y x = true ∧ y.anchored = false then
          { y with
            anchored := true
            anchor := anchorOf s t op p (span (64 * x.p) (min 64 (p.m - 64 * x.p)))
              (span (128 * y.g + 64 * y.h) y.nt) }
        else y }) := by
  obtain ⟨hon, hr, hp, hstop, hfail, hecc, hidle⟩ := h
  have hheaders : ((r.halves.filter fun y => sameGroup y x).all (·.hdrRead)) = true :=
    List.all_eq_true.mpr fun y hy => hread y (List.mem_filter.mp hy).1 (List.mem_filter.mp hy).2
  simp only [completes, exec, execAnchorScanDone, State.munit_of_on hon, hr, hp, hx, hn, hheaders, hstop,
    MRun.mayStart_of_no_failure hfail, State.portFree_idle hidle, State.spCheckAll_good hecc, rowRange]
  simp [hs]

end

theorem completes_zHalfBlockLoad {s : State} {t : TileId} {r : MRun} {op : MOp} {p : MPlate}
    (h : s.working t .b0 r op p) {x : HalfRun} (hd : p.deriv = true) (hl : r.z.length < 4)
    (hx : (r.halves.find? fun x => !x.noDrain && !r.z.any fun z => z.p == x.p && z.g == x.g && z.h == x.h) = some x)
    (hdue : r.zDue p x = true) :
    completes (.zHalfBlockLoad t false) s
      (s.putRun t .b0 { r with z := r.z ++ [⟨x.p, x.g, x.h, zValues s t p x⟩] }) := by
  obtain ⟨hon, hr, hp, hstop, hfail, hecc, hidle⟩ := h
  simp only [completes, exec, execZHalfBlockLoad, State.munit_of_on hon, hr, hp, hx, hd, hdue, hstop,
    MRun.mayStart_of_no_failure hfail, State.portFree_idle hidle, State.spCheckAll_good hecc]
  simp [Nat.not_le_of_lt hl]

/-- Settles O18: in a unit that works, with good words and free ports, each of the four loads goes through. -/
theorem matrixLoads : Obligations.MatrixLoads := by
  intro s t u r op p h
  refine ⟨fun x _ hs hx hl => completes_stationaryLoadDone h hs hx hl, fun hs hl hscan => ?stream,
    fun _ => completes_anchorScanDone h, ?z⟩
  case stream =>
    exact ⟨_, _, completes_streamLoadDone h hs hl hscan, State.runOf_putRun_same _ _ _ _, MRun.settle_streamNext _,
      ⟨_, MRun.settle_stream _, rfl, State.elems_streamHalf s t op p _⟩,
      ((onlyTileAnd.refl t _ s).setReg _ (List.mem_singleton_self _)).putRun u _⟩
  case z =>
    rintro x rfl hd hl hx hdue
    exact completes_zHalfBlockLoad h hd hl hx hdue

end Sys2Proof.Machine
end

section
/-! SUPPORT. What hosts do to a tile through the kernel path, and what switches its backward units' mode, with the
statement O22. -/
namespace Sys2Proof.Machine

/-! ### Writes through the kernel path (R30, R447) -/

theorem State.kernelWrite_of_kernelOff {s : State} {path : Path} {off o : Nat} (h : s.kernelOff path off = some o)
    (act : Nat → State → State) : s.kernelWrite path off act = act o s := by
  simp only [State.kernelWrite, h]

theorem State.kernelWrite_outside {s : State} {path : Path} (h : s.kernelPath path = none) (off : Nat)
    (act : Nat → State → State) : s.kernelWrite path off act = s := by
  simp only [State.kernelWrite, State.kernelOff, h]

/-! ### TILE_EVn (R178, R192) -/

theorem completes_tileEvWrite {s : State} {path : Path} {t : TileId} {n : Fin 16} {o : Nat}
    (h : s.kernelOff path (evReg t n) = some o) (v : BitVec 32) :
    completes (.tileEvWrite path t n v) s (s.setReg o (v.setWidth 64)) :=
  congrArg Host.Outcome.next (State.kernelWrite_of_kernelOff h _)

theorem completes_tileEvWrite_outside {s : State} {path : Path} (h : s.kernelPath path = none) (t : TileId)
    (n : Fin 16) (v : BitVec 32) : completes (.tileEvWrite path t n v) s s :=
  congrArg Host.Outcome.next (State.kernelWrite_outside h _ _)

/-! ### TILE_BWD_MODE (R160) -/

theorem onlyRegs_writeBwdMode (s : State) (o v : Nat) : onlyRegs [o] s (s.writeBwdMode o v) :=
  ((onlyRegs.refl _ s).putBit 0 _ (List.mem_singleton_self o)).putBit 1 _ (List.mem_singleton_self o)

/-- The bits of TILE_BWD_MODE after its write: ALL_FWD is the value's, PENDING tells whether it differs from the mode in
effect. -/
theorem flag_writeBwdMode (s : State) (o v n : Nat) : flag ((s.writeBwdMode o v).reg o) n =
    if n = 1 then bitN v 0 != flag (s.reg o) 2 else if n = 0 then bitN v 0 else flag (s.reg o) n := by
  simp only [State.writeBwdMode, State.reg_putBit, if_true, flag_putFlag _ 0 _ _ (by decide),
    flag_putFlag _ 1 _ _ (by decide)]

theorem completes_allFwdWrite {s : State} {path : Path} {t : TileId} {o : Nat}
    (h : s.kernelOff path (tileBase t + 0x8300) = some o) (v : BitVec 32) :
    completes (.allFwdWrite path t v) s (s.writeBwdMode o v.toNat) :=
  congrArg Host.Outcome.next (State.kernelWrite_of_kernelOff h _)

theorem completes_allFwdWrite_outside {s : State} {path : Path} (h : s.kernelPath path = none) (t : TileId)
    (v : BitVec 32) : completes (.allFwdWrite path t v) s s :=
  congrArg Host.Outcome.next (State.kernelWrite_outside h _ _)

/-! ### Instruction memory (R183, R185) -/

theorem State.imemHost_pinned {s : State} {t off : Nat} {bs : List Byte}
    (hp : (s.tile t).pinMeets off bs.length = true) (hb : 0 < bs.length) :
    s.imemHost t off bs = (s.count (tileBase t + 0x14) 1).putBit (tileBase t) 4 true := by
  rw [State.imemHost, if_neg (List.ne_nil_of_length_pos hb), if_pos hp]

theorem State.imemHost_unpinned {s : State} {t off : Nat} {bs : List Byte}
    (hp : (s.tile t).pinMeets off bs.length = false) (hb : 0 < bs.length) :
    s.imemHost t off bs = s.imemWrite (imemBase t + off) bs := by
  rw [State.imemHost, if_neg (List.ne_nil_of_length_pos hb), if_neg (by simp [hp])]

theorem State.bytes_imemWrite_same (s : State) (a : Nat) (bs : List Byte) :
    (s.imemWrite a bs).bytes a bs.length = bs := State.bytes_store_same s a bs

theorem memBut_imemWrite (s : State) (a : Nat) (bs : List Byte) : memBut a bs.length s (s.imemWrite a bs) :=
  fun k hk => State.byte_store_outside s a k bs hk

theorem regsBut_imemWrite (L : List Nat) (s : State) (a : Nat) (bs : List Byte) : regsBut L s (s.imemWrite a bs) :=
  fun _ _ => rfl

/-- IMEM_HOST_WRITE at an offset that stands for one in a tile's window: the tile's instruction memory takes the bytes. -/
theorem completes_imemHostWrite {s : State} {path : Path} {a : Nat} {t : TileId} {off : Nat} {bs : List Byte}
    (hpos : 0 < bs.length) (hlen : bs.length ≤ 512) (hoff : off < 0x10000)
    (h : s.kernelOff path a = some (0x2000000 + t.val * 0x10000 + off)) :
    completes (.imemHostWrite path a bs) s (s.imemHost t off bs) := by
  have hwf : (Instr.imemHostWrite path a bs).wf = true := by simp [Instr.wf, writeLen, hpos, hlen]
  have ht := t.isLt
  have htile : (0x2000000 + t.val * 0x10000 + off - 0x2000000) / 0x10000 = t.val := by omega
  have hin : (0x2000000 + t.val * 0x10000 + off) % 0x10000 = off := by omega
  refine (next_of_wf hwf .illFormed _).trans (congrArg Host.Outcome.next ?_)
  rw [State.kernelWrite_of_kernelOff h, if_pos (by omega), htile, hin]

/-! ### MODE_SWITCH (R160) -/

/-- B0 and B1 have empty queues and no command in flight, and no open issue has an S5 command to put there (R160). -/
abbrev Tile.bwdQuiet (x : Tile) : Prop := x.b0 = ⟨[], none⟩ ∧ x.b1 = ⟨[], none⟩ ∧ x.s5Open = false

theorem MUnitSt.eq_idle_iff (m : MUnitSt) : m = ⟨[], none⟩ ↔ m.queue.isEmpty = true ∧ m.run.isNone = true := by
  cases m
  simp

/-- The mode in effect becomes the requested one, which is pending no more. -/
def State.switchBwdMode (s : State) (o : Nat) : State := (s.putBit o 2 (flag (s.reg o) 0)).putBit o 1 false

theorem onlyRegs_switchBwdMode (s : State) (o : Nat) : onlyRegs [o] s (s.switchBwdMode o) :=
  ((onlyRegs.refl _ s).putBit 2 _ (List.mem_singleton_self o)).putBit 1 _ (List.mem_singleton_self o)

theorem flag_switchBwdMode (s : State) (o n : Nat) : flag ((s.switchBwdMode o).reg o) n =
    if n = 1 then false else if n = 2 then flag (s.reg o) 0 else flag (s.reg o) n := by
  simp only [State.switchBwdMode, State.reg_putBit, if_true, flag_putFlag _ 2 _ _ (by decide),
    flag_putFlag _ 1 _ _ (by decide)]

/-- MODE_SWITCH acts exactly where a mode is pending and the backward units are quiet. -/
theorem completes_modeSwitch (s : State) (t : TileId) :
    completes (.modeSwitch t) s
      (if flag (s.reg (tileBase t + 0x8300)) 1 = true ∧ (s.tile t).bwdQuiet then s.switchBwdMode (tileBase t + 0x8300)
        else s) := by
  refine congrArg Host.Outcome.next (ite_congr (propext ?_) (fun _ => rfl) fun _ => rfl)
  simp only [Tile.bwdQuiet, MUnitSt.eq_idle_iff, Bool.and_eq_true, Bool.not_eq_true', and_assoc, and_left_comm]

theorem completes_modeSwitch_quiet {s : State} {t : TileId} (hp : flag (s.reg (tileBase t + 0x8300)) 1 = true)
    (hq : (s.tile t).bwdQuiet) : completes (.modeSwitch t) s (s.switchBwdMode (tileBase t + 0x8300)) := by
  simpa only [if_pos (And.intro hp hq)] using completes_modeSwitch s t

theorem completes_modeSwitch_busy {s : State} {t : TileId} (hq : ¬ (s.tile t).bwdQuiet) :
    completes (.modeSwitch t) s s := by
  simpa only [if_neg (mt And.right hq)] using completes_modeSwitch s t

/-- Settles O22: the two registers where the kernel path reaches them and where it does not; instruction memory without
and with a pin in the way; a mode that is pending at quiet units, and units that are not quiet. -/
theorem tileRegistersFromOutside : Obligations.TileRegistersFromOutside := by
  refine ⟨fun s p t v => ⟨fun n o h => ?event, fun o h => ?mode, fun h => ?outside⟩,
    fun s p a t off bs hpos hlen hend h => ⟨fun hpin => ?lands, fun hpin => ?dropped⟩,
    fun s t => ⟨fun hpend hquiet => ?switches, completes_modeSwitch_busy⟩⟩
  case event =>
    exact ⟨_, completes_tileEvWrite h v, State.reg_setReg_same _ _ _,
      (onlyRegs.refl _ s).setReg _ (List.mem_singleton_self o)⟩
  case mode =>
    exact ⟨_, completes_allFwdWrite h v, onlyRegs_writeBwdMode s o _, flag_writeBwdMode s o _ 0,
      flag_writeBwdMode s o _ 1, flag_writeBwdMode s o _ 2⟩
  case outside =>
    exact ⟨fun n => completes_tileEvWrite_outside h t n v, completes_allFwdWrite_outside h t v⟩
  case lands =>
    have hc := completes_imemHostWrite hpos hlen (by omega) h
    rw [State.imemHost_unpinned hpin hpos] at hc
    exact ⟨_, hc, State.bytes_imemWrite_same s _ bs, memBut_imemWrite s _ bs, regsBut_imemWrite [] s _ bs⟩
  case dropped =>
    have hc := completes_imemHostWrite hpos hlen (by omega) h
    rwa [State.imemHost_pinned hpin hpos] at hc
  case switches =>
    exact ⟨_, completes_modeSwitch_quiet hpend hquiet, onlyRegs_switchBwdMode s _, flag_switchBwdMode s _ 2,
      flag_switchBwdMode s _ 1, flag_switchBwdMode s _ 0⟩

end Sys2Proof.Machine
end
